-- ==== Sys2Proof/Word.lean ====
section
/-! DEFINITION. The machine's two word widths (spec 00_scope.md R8: registers of 8 bits, addresses and the program
counter of 16 bits). Everything built from bits (fields, byte order, sign extension) stands in Machine/Bits.lean. -/

namespace Sys2Proof

/-- A byte: every register but PC, every memory location, every bus access (R8, R66). -/
abbrev Byte := BitVec 8

/-- A 16-bit word: the program counter and every address (R8, R60). -/
abbrev Word := BitVec 16

end Sys2Proof
end

