-- ==== Sys2Proof/Machine/Bits.lean ====
section
/-! DEFINITION. Bit fields, byte order and sign extension (spec 00_scope.md R10 to R12, 20_memory.md R64). -/

namespace Sys2Proof

/-- `{h, l}`: the 16-bit value `h * 256 + l` (R10). -/
def word (h l : Byte) : Word := h ++ l

/-- `lo8(w)` is `w[7:0]` (R10). -/
def lo8 (w : Word) : Byte := w.extractLsb' 0 8

/-- `hi8(w)` is `w[15:8]`, the page of an address (R10, R18). -/
def hi8 (w : Word) : Byte := w.extractLsb' 8 8

/-- `v[i]`: bit `i` of a byte, bit 0 the least significant (R10). -/
def bitOf (v : Byte) (i : Nat) : Bool := v.getLsbD i

/-- `sext_16(b)`: `b` below 0x80, `b + 0xFF00` otherwise; the branch displacement only (R12, R135). -/
def sext16 (b : Byte) : Word := b.signExtend 16

/-- `{0x00, b}`: an address in the zero page (R71, R93 zp8). -/
def zeroPage (b : Byte) : Word := word 0x00 b

/-- `0x0100 + S`: a stack address, always in page 0x01 (R24, R71). -/
def stackAddr (s : Byte) : Word := word 0x01 s

/-- A flag as the number 0 or 1 (R13). -/
def flagNat (b : Bool) : Nat := if b then 1 else 0

/-- The byte with only bit `i` set, `1 << i` (R220, R221). -/
def bitMask (i : Nat) : Byte := 1#8 <<< i

end Sys2Proof
end

