-- ==== Sys2Proof/Config.lean ====
section
/-! DEFINITION. The implementation parameters P1 to P8 of spec 00_scope.md R9 as plain data, and the free value.
A configuration is fixed for the lifetime of a core; State carries it so that one `exec` serves both variants
(notes/assumptions/1.md). -/

namespace Sys2Proof

/-- P1 `VARIANT`: the two process variants of the core (R1, R9). -/
inductive Variant where
  | nmos6502   -- the MOS 6502
  | cmos65C02  -- the WDC 65C02
  deriving DecidableEq, Repr

/-- P3 `CMOS_RMW_SECOND_ACCESS`: the middle access of a read-modify-write on CMOS65C02 (R210, R369). -/
inductive RmwSecondAccess where
  | writeOld
  | read
  deriving DecidableEq, Repr

/-- P8 `NMOS_DEC_ADC_N`: the sum that N of a decimal ADC on NMOS6502 is taken from (R184). -/
inductive DecAdcN where
  | intermediate
  | binary
  deriving DecidableEq, Repr

/-- The kinds of dummy access of 48_bus_access_patterns.md R343. -/
inductive DummyKind where
  | afterOpcode
  | zpIndex
  | indexFixup
  | stackTop
  | rtsInc
  | branchTaken
  | branchCross
  | zprReread
  | iaxInternal
  | cmosDecExtra
  deriving DecidableEq, Repr

/-- What the address of a dummy access may depend on: the variant and the kind (P4's keys), the address of R343's table (for
`cmosDecExtra` the operand's effective address), the address after the last instruction byte fetched, every register and flag, and
memory. -/
structure AddressInputs where
  variant : Variant
  kind    : DummyKind
  table   : Word
  next    : Word
  A : Byte
  X : Byte
  Y : Byte
  S : Byte
  C : Bool
  Z : Bool
  I : Bool
  D : Bool
  V : Bool
  N : Bool
  mem     : List (Nat × Byte)
  deriving DecidableEq, Repr

/-- The n-th uninterpreted address function: a value for P4 or P5 of which nothing is known. It has no body, so what is proved
of it holds of every function (notes/assumptions/12.md). -/
opaque Config.anyAddress : Nat → AddressInputs → Word

/-- An address function as plain data: a cell of P4's table, or P5 (R9). The spec names no value but the defaults, so the forms
beside `table` are the model's (notes/assumptions/12.md); `any` makes them every function. -/
inductive AddressFn where
  /-- the address of R343's table; for P5, the operand's effective address -/
  | table
  | const (w : Word)
  /-- the address after the last instruction byte fetched -/
  | nextByte
  /-- the address of the last instruction byte fetched -/
  | lastByte
  /-- A as an address in page 0, and so for X, Y and S -/
  | A | X | Y | S
  /-- the byte that memory holds at an address -/
  | byteAt (e : AddressFn)
  | add (e f : AddressFn)
  | sub (e f : AddressFn)
  /-- the page of the first with the low byte of the second -/
  | inPage (e f : AddressFn)
  /-- an uninterpreted function -/
  | any (n : Nat)
  deriving DecidableEq, Repr

/-- The parameters of R9. The defaults are R9's; for P1, which has none, the default is a DESIGN CHOICE
(notes/assumptions/1.md). -/
structure Config where
  /-- P1 -/
  variant : Variant := .cmos65C02
  /-- P2 `CMOS_BBR_BBS` -/
  cmosBbrBbs : Bool := true
  /-- P3 -/
  cmosRmwSecondAccess : RmwSecondAccess := .writeOld
  /-- P4 `DUMMY_ADDR`: the cells (variant, kind) whose address differs from R343's table; none by default -/
  dummyAddresses : List ((Variant × DummyKind) × AddressFn) := []
  /-- P5 `CMOS_DEC_EXTRA_ADDR`: by default the operand's effective address -/
  cmosDecExtraAddress : AddressFn := .table
  /-- P6 `INT_VECTOR_FETCH_COUNTED` -/
  intVectorFetchCounted : Bool := false
  /-- P7 `STOP_ON_BREAK`, a host option -/
  stopOnBreak : Bool := false
  /-- P8 -/
  nmosDecAdcN : DecAdcN := .intermediate
  deriving DecidableEq, Repr

/-- The free value: what the host-side counters hold after an event for which R431 states nothing (Reset; the
instruction counter after NMI and a taken IRQ). It has no body, so no proof can see a value (notes/assumptions/6.md). -/
opaque Config.freeCounter : Nat → Nat

end Sys2Proof
end

