-- ==== Sys2Proof/Syntax.lean ====
section
/-! DEFINITION. The instructions: one constructor per mnemonic of spec/opcode_table.json, its operand form an argument, so that
a row of the table is a constructor with one of its operand forms (30_encoding.md R96, R97). The table's ILLEGAL rows are the
constructor `illegal`, which holds the byte. -/

namespace Sys2Proof

/-- The operand forms of the READ and WRITE classes, with the operand bytes (40_addressing_modes.md R124 to R133). An
absolute address is the pair of operand bytes, low byte first (R93). -/
inductive DataOperand where
  | imm (b : Byte)   -- #$nn
  | zp  (b : Byte)   -- $nn
  | zpx (b : Byte)   -- $nn,X
  | zpy (b : Byte)   -- $nn,Y
  | abs (w : Word)   -- $nnnn
  | abx (w : Word)   -- $nnnn,X
  | aby (w : Word)   -- $nnnn,Y
  | izx (b : Byte)   -- ($nn,X)
  | izy (b : Byte)   -- ($nn),Y
  | izp (b : Byte)   -- ($nn), CMOS65C02 only
  deriving DecidableEq, Repr

/-- The operand forms of the read-modify-write class: the accumulator, or memory (44_rmw.md R210, R211). -/
inductive RmwOperand where
  | acc
  | zp  (b : Byte)
  | zpx (b : Byte)
  | abs (w : Word)
  | abx (w : Word)
  deriving DecidableEq, Repr

/-- The operand forms of JMP (R128, R137, R138). -/
inductive JumpOperand where
  | abs (w : Word)
  | ind (w : Word)   -- ($nnnn)
  | iax (w : Word)   -- ($nnnn,X), CMOS65C02 only
  deriving DecidableEq, Repr

/-- The addressing-mode tags of R92, and `none` for the ILLEGAL rows of the table. -/
inductive Mode where
  | imp | acc | stk | imm | zp | zpx | zpy | izx | izy | izp | rel | abs | abx | aby | ind | iax | zpr | none
  deriving DecidableEq, Repr

/-- The instructions of both variants. -/
inductive Instr where
  -- 41_read_class.md: loads, logic, compares, BIT
  | lda (o : DataOperand)   -- LDA, R152
  | ldx (o : DataOperand)   -- LDX, R153
  | ldy (o : DataOperand)   -- LDY, R154
  | and (o : DataOperand)   -- AND, R155
  | ora (o : DataOperand)   -- ORA, R156
  | eor (o : DataOperand)   -- EOR, R157
  | cmp (o : DataOperand)   -- CMP, R158
  | cpx (o : DataOperand)   -- CPX, R159
  | cpy (o : DataOperand)   -- CPY, R160
  | bit (o : DataOperand)   -- BIT, R161
  -- 42_adc_sbc.md
  | adc (o : DataOperand)   -- ADC, R182
  | sbc (o : DataOperand)   -- SBC, R183
  -- 43_store_class.md
  | sta (o : DataOperand)   -- STA, R201
  | stx (o : DataOperand)   -- STX, R202
  | sty (o : DataOperand)   -- STY, R203
  | stz (o : DataOperand)   -- STZ, R204
  -- 44_rmw.md
  | asl (o : RmwOperand)   -- ASL, R212
  | lsr (o : RmwOperand)   -- LSR, R213
  | rol (o : RmwOperand)   -- ROL, R214
  | ror (o : RmwOperand)   -- ROR, R215
  | inc (o : RmwOperand)   -- INC, R216
  | dec (o : RmwOperand)   -- DEC, R217
  | tsb (o : RmwOperand)   -- TSB, R218
  | trb (o : RmwOperand)   -- TRB, R219
  | rmb0 (zp : Byte)   -- RMB0, R220
  | rmb1 (zp : Byte)   -- RMB1, R220
  | rmb2 (zp : Byte)   -- RMB2, R220
  | rmb3 (zp : Byte)   -- RMB3, R220
  | rmb4 (zp : Byte)   -- RMB4, R220
  | rmb5 (zp : Byte)   -- RMB5, R220
  | rmb6 (zp : Byte)   -- RMB6, R220
  | rmb7 (zp : Byte)   -- RMB7, R220
  | smb0 (zp : Byte)   -- SMB0, R221
  | smb1 (zp : Byte)   -- SMB1, R221
  | smb2 (zp : Byte)   -- SMB2, R221
  | smb3 (zp : Byte)   -- SMB3, R221
  | smb4 (zp : Byte)   -- SMB4, R221
  | smb5 (zp : Byte)   -- SMB5, R221
  | smb6 (zp : Byte)   -- SMB6, R221
  | smb7 (zp : Byte)   -- SMB7, R221
  -- 45_branch_jump.md
  | bpl (off : Byte)   -- BPL, R241
  | bmi (off : Byte)   -- BMI, R242
  | bvc (off : Byte)   -- BVC, R243
  | bvs (off : Byte)   -- BVS, R244
  | bcc (off : Byte)   -- BCC, R245
  | bcs (off : Byte)   -- BCS, R246
  | bne (off : Byte)   -- BNE, R247
  | beq (off : Byte)   -- BEQ, R248
  | bra (off : Byte)   -- BRA, R249
  | bbr0 (zp off : Byte)   -- BBR0, R250
  | bbr1 (zp off : Byte)   -- BBR1, R250
  | bbr2 (zp off : Byte)   -- BBR2, R250
  | bbr3 (zp off : Byte)   -- BBR3, R250
  | bbr4 (zp off : Byte)   -- BBR4, R250
  | bbr5 (zp off : Byte)   -- BBR5, R250
  | bbr6 (zp off : Byte)   -- BBR6, R250
  | bbr7 (zp off : Byte)   -- BBR7, R250
  | bbs0 (zp off : Byte)   -- BBS0, R251
  | bbs1 (zp off : Byte)   -- BBS1, R251
  | bbs2 (zp off : Byte)   -- BBS2, R251
  | bbs3 (zp off : Byte)   -- BBS3, R251
  | bbs4 (zp off : Byte)   -- BBS4, R251
  | bbs5 (zp off : Byte)   -- BBS5, R251
  | bbs6 (zp off : Byte)   -- BBS6, R251
  | bbs7 (zp off : Byte)   -- BBS7, R251
  | jmp (o : JumpOperand)   -- JMP, R252
  -- 46_stack_interrupt_shaped.md
  | pha   -- PHA, R271
  | php   -- PHP, R272
  | phx   -- PHX, R273
  | phy   -- PHY, R274
  | pla   -- PLA, R275
  | plp   -- PLP, R276
  | plx   -- PLX, R277
  | ply   -- PLY, R278
  | jsr (target : Word)   -- JSR, R279
  | rts   -- RTS, R280
  | brk   -- BRK, R281
  | rti   -- RTI, R282
  -- 47_implied.md
  | tax   -- TAX, R301
  | tay   -- TAY, R302
  | txa   -- TXA, R303
  | tya   -- TYA, R304
  | tsx   -- TSX, R305
  | txs   -- TXS, R306
  | inx   -- INX, R307
  | iny   -- INY, R308
  | dex   -- DEX, R309
  | dey   -- DEY, R310
  | clc   -- CLC, R311
  | sec   -- SEC, R312
  | cli   -- CLI, R313
  | sei   -- SEI, R314
  | cld   -- CLD, R315
  | sed   -- SED, R316
  | clv   -- CLV, R317
  | nop   -- NOP, R318
  | wai   -- WAI, R319
  | stp   -- STP, R320
  -- 60_exceptions.md
  | illegal (opcode : Byte)   -- ILLEGAL, R404
  deriving DecidableEq, Repr

end Sys2Proof
end

