-- ==== Sys2Proof/WellFormed.lean ====
section
/-! DEFINITION. Which terms of Instr are instructions of a configuration: (1) the mnemonic has the addressing mode (the
Operands lines of the instruction rules), (2) the variant and P2 have it, (3) an `illegal` term holds an illegal byte (R98). -/

namespace Sys2Proof

/-- The mode of a data operand (R124 to R133). -/
def DataOperand.mode : DataOperand → Mode
  | .imm _ => .imm
  | .zp _  => .zp
  | .zpx _ => .zpx
  | .zpy _ => .zpy
  | .abs _ => .abs
  | .abx _ => .abx
  | .aby _ => .aby
  | .izx _ => .izx
  | .izy _ => .izy
  | .izp _ => .izp

/-- The mode of a read-modify-write operand (R122, R125, R126, R128, R129). -/
def RmwOperand.mode : RmwOperand → Mode
  | .acc   => .acc
  | .zp _  => .zp
  | .zpx _ => .zpx
  | .abs _ => .abs
  | .abx _ => .abx

/-- The mode of a jump operand (R128, R137, R138). -/
def JumpOperand.mode : JumpOperand → Mode
  | .abs _ => .abs
  | .ind _ => .ind
  | .iax _ => .iax

/-- The addressing mode of each instruction (R97). -/
def Instr.mode : Instr → Mode
  | .lda o => o.mode
  | .ldx o => o.mode
  | .ldy o => o.mode
  | .and o => o.mode
  | .ora o => o.mode
  | .eor o => o.mode
  | .cmp o => o.mode
  | .cpx o => o.mode
  | .cpy o => o.mode
  | .bit o => o.mode
  | .adc o => o.mode
  | .sbc o => o.mode
  | .sta o => o.mode
  | .stx o => o.mode
  | .sty o => o.mode
  | .stz o => o.mode
  | .asl o => o.mode
  | .lsr o => o.mode
  | .rol o => o.mode
  | .ror o => o.mode
  | .inc o => o.mode
  | .dec o => o.mode
  | .tsb o => o.mode
  | .trb o => o.mode
  | .rmb0 _ => .zp
  | .rmb1 _ => .zp
  | .rmb2 _ => .zp
  | .rmb3 _ => .zp
  | .rmb4 _ => .zp
  | .rmb5 _ => .zp
  | .rmb6 _ => .zp
  | .rmb7 _ => .zp
  | .smb0 _ => .zp
  | .smb1 _ => .zp
  | .smb2 _ => .zp
  | .smb3 _ => .zp
  | .smb4 _ => .zp
  | .smb5 _ => .zp
  | .smb6 _ => .zp
  | .smb7 _ => .zp
  | .bpl _ => .rel
  | .bmi _ => .rel
  | .bvc _ => .rel
  | .bvs _ => .rel
  | .bcc _ => .rel
  | .bcs _ => .rel
  | .bne _ => .rel
  | .beq _ => .rel
  | .bra _ => .rel
  | .bbr0 _ _ => .zpr
  | .bbr1 _ _ => .zpr
  | .bbr2 _ _ => .zpr
  | .bbr3 _ _ => .zpr
  | .bbr4 _ _ => .zpr
  | .bbr5 _ _ => .zpr
  | .bbr6 _ _ => .zpr
  | .bbr7 _ _ => .zpr
  | .bbs0 _ _ => .zpr
  | .bbs1 _ _ => .zpr
  | .bbs2 _ _ => .zpr
  | .bbs3 _ _ => .zpr
  | .bbs4 _ _ => .zpr
  | .bbs5 _ _ => .zpr
  | .bbs6 _ _ => .zpr
  | .bbs7 _ _ => .zpr
  | .jmp o => o.mode
  | .pha => .stk
  | .php => .stk
  | .phx => .stk
  | .phy => .stk
  | .pla => .stk
  | .plp => .stk
  | .plx => .stk
  | .ply => .stk
  | .jsr _ => .abs
  | .rts => .stk
  | .brk => .stk
  | .rti => .stk
  | .tax => .imp
  | .tay => .imp
  | .txa => .imp
  | .tya => .imp
  | .tsx => .imp
  | .txs => .imp
  | .inx => .imp
  | .iny => .imp
  | .dex => .imp
  | .dey => .imp
  | .clc => .imp
  | .sec => .imp
  | .cli => .imp
  | .sei => .imp
  | .cld => .imp
  | .sed => .imp
  | .clv => .imp
  | .nop => .imp
  | .wai => .imp
  | .stp => .imp
  | .illegal _ => .none

/-- The eight modes that the accumulator read instructions have on both variants (R152, R155 to R158, R182, R183). -/
def accumulatorModes : List Mode := [.imm, .zp, .zpx, .abs, .abx, .aby, .izx, .izy]

/-- The modes of the mnemonic on both variants (the Operands line of its rule, before "CMOS65C02 also"). -/
def Instr.commonModes : Instr → List Mode
  | .lda _ | .and _ | .ora _ | .eor _ | .cmp _ | .adc _ | .sbc _ => accumulatorModes
  | .ldx _ => [.imm, .zp, .zpy, .abs, .aby]
  | .ldy _ => [.imm, .zp, .zpx, .abs, .abx]
  | .cpx _ | .cpy _ => [.imm, .zp, .abs]
  | .bit _ => [.zp, .abs]
  | .sta _ => [.zp, .zpx, .abs, .abx, .aby, .izx, .izy]
  | .stx _ => [.zp, .zpy, .abs]
  | .sty _ => [.zp, .zpx, .abs]
  | .asl _ | .lsr _ | .rol _ | .ror _ => [.acc, .zp, .zpx, .abs, .abx]
  | .inc _ | .dec _ => [.zp, .zpx, .abs, .abx]
  | .jmp _ => [.abs, .ind]
  | .jsr _ => [.abs]
  | .bpl _ | .bmi _ | .bvc _ | .bvs _ | .bcc _ | .bcs _ | .bne _ | .beq _ => [.rel]
  | .pha | .php | .pla | .plp | .rts | .brk | .rti => [.stk]
  | .tax | .tay | .txa | .tya | .tsx | .txs | .inx | .iny | .dex | .dey | .clc | .sec | .cli | .sei | .cld | .sed | .clv
  | .nop => [.imp]
  | .stz _ | .tsb _ | .trb _ | .bra _ | .phx | .phy | .plx | .ply | .wai | .stp
  | .rmb0 _ | .rmb1 _ | .rmb2 _ | .rmb3 _ | .rmb4 _ | .rmb5 _ | .rmb6 _ | .rmb7 _
  | .smb0 _ | .smb1 _ | .smb2 _ | .smb3 _ | .smb4 _ | .smb5 _ | .smb6 _ | .smb7 _
  | .bbr0 _ _ | .bbr1 _ _ | .bbr2 _ _ | .bbr3 _ _ | .bbr4 _ _ | .bbr5 _ _ | .bbr6 _ _ | .bbr7 _ _
  | .bbs0 _ _ | .bbs1 _ _ | .bbs2 _ _ | .bbs3 _ _ | .bbs4 _ _ | .bbs5 _ _ | .bbs6 _ _ | .bbs7 _ _
  | .illegal _ => []

/-- The modes of the mnemonic that only CMOS65C02 has (R97 "(CMOS)"). -/
def Instr.cmosModes : Instr → List Mode
  | .lda _ | .and _ | .ora _ | .eor _ | .cmp _ | .adc _ | .sbc _ | .sta _ => [.izp]
  | .bit _ => [.imm, .zpx, .abx]
  | .stz _ => [.zp, .zpx, .abs, .abx]
  | .inc _ | .dec _ => [.acc]
  | .tsb _ | .trb _ => [.zp, .abs]
  | .bra _ => [.rel]
  | .jmp _ => [.iax]
  | .phx | .phy | .plx | .ply => [.stk]
  | .wai | .stp => [.imp]
  | .rmb0 _ | .rmb1 _ | .rmb2 _ | .rmb3 _ | .rmb4 _ | .rmb5 _ | .rmb6 _ | .rmb7 _
  | .smb0 _ | .smb1 _ | .smb2 _ | .smb3 _ | .smb4 _ | .smb5 _ | .smb6 _ | .smb7 _ => [.zp]
  | .bbr0 _ _ | .bbr1 _ _ | .bbr2 _ _ | .bbr3 _ _ | .bbr4 _ _ | .bbr5 _ _ | .bbr6 _ _ | .bbr7 _ _
  | .bbs0 _ _ | .bbs1 _ _ | .bbs2 _ _ | .bbs3 _ _ | .bbs4 _ _ | .bbs5 _ _ | .bbs6 _ _ | .bbs7 _ _ => [.zpr]
  | .ldx _ | .ldy _ | .cpx _ | .cpy _ | .stx _ | .sty _ | .asl _ | .lsr _ | .rol _ | .ror _ | .bpl _ | .bmi _ | .bvc _ | .bvs _
  | .bcc _ | .bcs _ | .bne _ | .beq _ | .pha | .php | .pla | .plp | .jsr _ | .rts | .brk | .rti | .tax | .tay
  | .txa | .tya | .tsx | .txs | .inx | .iny | .dex | .dey | .clc | .sec | .cli | .sei | .cld | .sed
  | .clv | .nop | .illegal _ => []

/-- BBRn or BBSn: the sixteen instructions that P2 selects (R9, R98). -/
def Instr.isBitBranch : Instr → Bool
  | .bbr0 _ _ | .bbr1 _ _ | .bbr2 _ _ | .bbr3 _ _ | .bbr4 _ _ | .bbr5 _ _ | .bbr6 _ _ | .bbr7 _ _
  | .bbs0 _ _ | .bbs1 _ _ | .bbs2 _ _ | .bbs3 _ _ | .bbs4 _ _ | .bbs5 _ _ | .bbs6 _ _ | .bbs7 _ _ => true
  | .lda _ | .ldx _ | .ldy _ | .and _ | .ora _ | .eor _ | .cmp _ | .cpx _ | .cpy _ | .bit _ | .adc _ | .sbc _ | .sta _ | .stx _
  | .sty _ | .stz _ | .asl _ | .lsr _ | .rol _ | .ror _ | .inc _ | .dec _ | .tsb _ | .trb _ | .rmb0 _ | .rmb1 _ | .rmb2 _ | .rmb3 _
  | .rmb4 _ | .rmb5 _ | .rmb6 _ | .rmb7 _ | .smb0 _ | .smb1 _ | .smb2 _ | .smb3 _ | .smb4 _ | .smb5 _ | .smb6 _ | .smb7 _ | .bpl _ | .bmi _
  | .bvc _ | .bvs _ | .bcc _ | .bcs _ | .bne _ | .beq _ | .bra _ | .jmp _ | .pha | .php | .phx | .phy | .pla | .plp
  | .plx | .ply | .jsr _ | .rts | .brk | .rti | .tax | .tay | .txa | .tya | .tsx | .txs | .inx | .iny
  | .dex | .dey | .clc | .sec | .cli | .sei | .cld | .sed | .clv | .nop | .wai | .stp | .illegal _ => false

/-- The mnemonic has this mode on some variant (R97). -/
def Instr.hasMode (i : Instr) : Bool := i.commonModes.contains i.mode || i.cmosModes.contains i.mode

/-- The variant and P2 have the mnemonic in this mode (R96, R97). -/
def Instr.available (cfg : Config) (i : Instr) : Bool :=
  match cfg.variant with
  | .nmos6502  => i.commonModes.contains i.mode
  | .cmos65C02 => i.hasMode && (cfg.cmosBbrBbs || !i.isBitBranch)

/-- The term is an instruction of the configuration: one of its table's instruction entries, or `illegal` with one of its
illegal bytes (R94 to R98). -/
def Instr.wellFormed (cfg : Config) (i : Instr) : Bool :=
  match i with
  | .illegal op => isIllegalByte cfg op
  | i => i.available cfg

end Sys2Proof
end

