-- ==== Sys2Proof/Decode.lean ====
section
/-! DEFINITION. The decoder, total on any bytes, and after it the encoder. The decoder reads the opcode matrix of spec
30_encoding.md R96; the encoder is written from the other table of the spec, R97 (mode = byte for each mnemonic), R99 and R105,
so that their agreement (decode of encode) says something. -/

namespace Sys2Proof

/-! ## Decoding -/

/-- A slot of the opcode table (R94): the illegal marker, or an instruction of 1, 2 or 3 bytes awaiting its operand bytes. -/
inductive Cell where
  | ill
  | one   (i : Instr)
  | two   (f : Byte → Instr)
  | three (f : Word → Instr)
  | zpr   (f : Byte → Byte → Instr)

/-- Row 0x of the matrix of R96 (CMOS65C02 with P2 = true). -/
def matrixRow0 : List Cell :=
  [.one .brk, .two fun b => .ora (.izx b), .ill, .ill,
   .two fun b => .tsb (.zp b), .two fun b => .ora (.zp b), .two fun b => .asl (.zp b), .two fun b => .rmb0 b,
   .one .php, .two fun b => .ora (.imm b), .one (.asl .acc), .ill,
   .three fun w => .tsb (.abs w), .three fun w => .ora (.abs w), .three fun w => .asl (.abs w), .zpr fun z d => .bbr0 z d]

/-- Row 1x of the matrix of R96 (CMOS65C02 with P2 = true). -/
def matrixRow1 : List Cell :=
  [.two fun b => .bpl b, .two fun b => .ora (.izy b), .two fun b => .ora (.izp b), .ill,
   .two fun b => .trb (.zp b), .two fun b => .ora (.zpx b), .two fun b => .asl (.zpx b), .two fun b => .rmb1 b,
   .one .clc, .three fun w => .ora (.aby w), .one (.inc .acc), .ill,
   .three fun w => .trb (.abs w), .three fun w => .ora (.abx w), .three fun w => .asl (.abx w), .zpr fun z d => .bbr1 z d]

/-- Row 2x of the matrix of R96 (CMOS65C02 with P2 = true). -/
def matrixRow2 : List Cell :=
  [.three fun w => .jsr w, .two fun b => .and (.izx b), .ill, .ill,
   .two fun b => .bit (.zp b), .two fun b => .and (.zp b), .two fun b => .rol (.zp b), .two fun b => .rmb2 b,
   .one .plp, .two fun b => .and (.imm b), .one (.rol .acc), .ill,
   .three fun w => .bit (.abs w), .three fun w => .and (.abs w), .three fun w => .rol (.abs w), .zpr fun z d => .bbr2 z d]

/-- Row 3x of the matrix of R96 (CMOS65C02 with P2 = true). -/
def matrixRow3 : List Cell :=
  [.two fun b => .bmi b, .two fun b => .and (.izy b), .two fun b => .and (.izp b), .ill,
   .two fun b => .bit (.zpx b), .two fun b => .and (.zpx b), .two fun b => .rol (.zpx b), .two fun b => .rmb3 b,
   .one .sec, .three fun w => .and (.aby w), .one (.dec .acc), .ill,
   .three fun w => .bit (.abx w), .three fun w => .and (.abx w), .three fun w => .rol (.abx w), .zpr fun z d => .bbr3 z d]

/-- Row 4x of the matrix of R96 (CMOS65C02 with P2 = true). -/
def matrixRow4 : List Cell :=
  [.one .rti, .two fun b => .eor (.izx b), .ill, .ill,
   .ill, .two fun b => .eor (.zp b), .two fun b => .lsr (.zp b), .two fun b => .rmb4 b,
   .one .pha, .two fun b => .eor (.imm b), .one (.lsr .acc), .ill,
   .three fun w => .jmp (.abs w), .three fun w => .eor (.abs w), .three fun w => .lsr (.abs w), .zpr fun z d => .bbr4 z d]

/-- Row 5x of the matrix of R96 (CMOS65C02 with P2 = true). -/
def matrixRow5 : List Cell :=
  [.two fun b => .bvc b, .two fun b => .eor (.izy b), .two fun b => .eor (.izp b), .ill,
   .ill, .two fun b => .eor (.zpx b), .two fun b => .lsr (.zpx b), .two fun b => .rmb5 b,
   .one .cli, .three fun w => .eor (.aby w), .one .phy, .ill,
   .ill, .three fun w => .eor (.abx w), .three fun w => .lsr (.abx w), .zpr fun z d => .bbr5 z d]

/-- Row 6x of the matrix of R96 (CMOS65C02 with P2 = true). -/
def matrixRow6 : List Cell :=
  [.one .rts, .two fun b => .adc (.izx b), .ill, .ill,
   .two fun b => .stz (.zp b), .two fun b => .adc (.zp b), .two fun b => .ror (.zp b), .two fun b => .rmb6 b,
   .one .pla, .two fun b => .adc (.imm b), .one (.ror .acc), .ill,
   .three fun w => .jmp (.ind w), .three fun w => .adc (.abs w), .three fun w => .ror (.abs w), .zpr fun z d => .bbr6 z d]

/-- Row 7x of the matrix of R96 (CMOS65C02 with P2 = true). -/
def matrixRow7 : List Cell :=
  [.two fun b => .bvs b, .two fun b => .adc (.izy b), .two fun b => .adc (.izp b), .ill,
   .two fun b => .stz (.zpx b), .two fun b => .adc (.zpx b), .two fun b => .ror (.zpx b), .two fun b => .rmb7 b,
   .one .sei, .three fun w => .adc (.aby w), .one .ply, .ill,
   .three fun w => .jmp (.iax w), .three fun w => .adc (.abx w), .three fun w => .ror (.abx w), .zpr fun z d => .bbr7 z d]

/-- Row 8x of the matrix of R96 (CMOS65C02 with P2 = true). -/
def matrixRow8 : List Cell :=
  [.two fun b => .bra b, .two fun b => .sta (.izx b), .ill, .ill,
   .two fun b => .sty (.zp b), .two fun b => .sta (.zp b), .two fun b => .stx (.zp b), .two fun b => .smb0 b,
   .one .dey, .two fun b => .bit (.imm b), .one .txa, .ill,
   .three fun w => .sty (.abs w), .three fun w => .sta (.abs w), .three fun w => .stx (.abs w), .zpr fun z d => .bbs0 z d]

/-- Row 9x of the matrix of R96 (CMOS65C02 with P2 = true). -/
def matrixRow9 : List Cell :=
  [.two fun b => .bcc b, .two fun b => .sta (.izy b), .two fun b => .sta (.izp b), .ill,
   .two fun b => .sty (.zpx b), .two fun b => .sta (.zpx b), .two fun b => .stx (.zpy b), .two fun b => .smb1 b,
   .one .tya, .three fun w => .sta (.aby w), .one .txs, .ill,
   .three fun w => .stz (.abs w), .three fun w => .sta (.abx w), .three fun w => .stz (.abx w), .zpr fun z d => .bbs1 z d]

/-- Row Ax of the matrix of R96 (CMOS65C02 with P2 = true). -/
def matrixRowA : List Cell :=
  [.two fun b => .ldy (.imm b), .two fun b => .lda (.izx b), .two fun b => .ldx (.imm b), .ill,
   .two fun b => .ldy (.zp b), .two fun b => .lda (.zp b), .two fun b => .ldx (.zp b), .two fun b => .smb2 b,
   .one .tay, .two fun b => .lda (.imm b), .one .tax, .ill,
   .three fun w => .ldy (.abs w), .three fun w => .lda (.abs w), .three fun w => .ldx (.abs w), .zpr fun z d => .bbs2 z d]

/-- Row Bx of the matrix of R96 (CMOS65C02 with P2 = true). -/
def matrixRowB : List Cell :=
  [.two fun b => .bcs b, .two fun b => .lda (.izy b), .two fun b => .lda (.izp b), .ill,
   .two fun b => .ldy (.zpx b), .two fun b => .lda (.zpx b), .two fun b => .ldx (.zpy b), .two fun b => .smb3 b,
   .one .clv, .three fun w => .lda (.aby w), .one .tsx, .ill,
   .three fun w => .ldy (.abx w), .three fun w => .lda (.abx w), .three fun w => .ldx (.aby w), .zpr fun z d => .bbs3 z d]

/-- Row Cx of the matrix of R96 (CMOS65C02 with P2 = true). -/
def matrixRowC : List Cell :=
  [.two fun b => .cpy (.imm b), .two fun b => .cmp (.izx b), .ill, .ill,
   .two fun b => .cpy (.zp b), .two fun b => .cmp (.zp b), .two fun b => .dec (.zp b), .two fun b => .smb4 b,
   .one .iny, .two fun b => .cmp (.imm b), .one .dex, .one .wai,
   .three fun w => .cpy (.abs w), .three fun w => .cmp (.abs w), .three fun w => .dec (.abs w), .zpr fun z d => .bbs4 z d]

/-- Row Dx of the matrix of R96 (CMOS65C02 with P2 = true). -/
def matrixRowD : List Cell :=
  [.two fun b => .bne b, .two fun b => .cmp (.izy b), .two fun b => .cmp (.izp b), .ill,
   .ill, .two fun b => .cmp (.zpx b), .two fun b => .dec (.zpx b), .two fun b => .smb5 b,
   .one .cld, .three fun w => .cmp (.aby w), .one .phx, .one .stp,
   .ill, .three fun w => .cmp (.abx w), .three fun w => .dec (.abx w), .zpr fun z d => .bbs5 z d]

/-- Row Ex of the matrix of R96 (CMOS65C02 with P2 = true). -/
def matrixRowE : List Cell :=
  [.two fun b => .cpx (.imm b), .two fun b => .sbc (.izx b), .ill, .ill,
   .two fun b => .cpx (.zp b), .two fun b => .sbc (.zp b), .two fun b => .inc (.zp b), .two fun b => .smb6 b,
   .one .inx, .two fun b => .sbc (.imm b), .one .nop, .ill,
   .three fun w => .cpx (.abs w), .three fun w => .sbc (.abs w), .three fun w => .inc (.abs w), .zpr fun z d => .bbs6 z d]

/-- Row Fx of the matrix of R96 (CMOS65C02 with P2 = true). -/
def matrixRowF : List Cell :=
  [.two fun b => .beq b, .two fun b => .sbc (.izy b), .two fun b => .sbc (.izp b), .ill,
   .ill, .two fun b => .sbc (.zpx b), .two fun b => .inc (.zpx b), .two fun b => .smb7 b,
   .one .sed, .three fun w => .sbc (.aby w), .one .plx, .ill,
   .ill, .three fun w => .sbc (.abx w), .three fun w => .inc (.abx w), .zpr fun z d => .bbs7 z d]

/-- The 256 slots of the matrix of R96 for CMOS65C02 with P2 = true. Every cell of the NMOS6502 matrix that is not
illegal is the same cell here (R96); which bytes a variant has is `isIllegalByte`. -/
def opcodeMatrix : List Cell :=
  matrixRow0 ++ matrixRow1 ++ matrixRow2 ++ matrixRow3 ++ matrixRow4 ++ matrixRow5 ++ matrixRow6 ++ matrixRow7 ++
  matrixRow8 ++ matrixRow9 ++ matrixRowA ++ matrixRowB ++ matrixRowC ++ matrixRowD ++ matrixRowE ++ matrixRowF

/-- `TABLE[VARIANT][opcode]` (R94). -/
def tableCell (cfg : Config) (op : Byte) : Cell :=
  if isIllegalByte cfg op then .ill else opcodeMatrix.getD op.toNat .ill

/-- The length in bytes of the instruction in a slot; an illegal byte is a row of one byte (R90, R91). -/
def Cell.length : Cell → Nat
  | .ill     => 1
  | .one _   => 1
  | .two _   => 2
  | .three _ => 3
  | .zpr _   => 3

/-- The instruction of a slot: the operand is put together as R93 says, an absolute address low byte first. -/
def Cell.instr (c : Cell) (b0 b1 b2 : Byte) : Instr :=
  match c with
  | .ill     => .illegal b0
  | .one i   => i
  | .two f   => f b1
  | .three f => f (word b2 b1)
  | .zpr f   => f b1 b2

/-- The instruction of opcode byte `b0` with the two bytes that follow it (those past its length are not looked at). -/
def decodeBytes (cfg : Config) (b0 b1 b2 : Byte) : Instr := (tableCell cfg b0).instr b0 b1 b2

/-- Why the decoder reads no instruction from a list of bytes. -/
inductive DecodeError where
  /-- the list is empty -/
  | noBytes
  /-- the list ends before the operand bytes of this opcode -/
  | truncated (opcode : Byte)
  deriving DecidableEq, Repr

/-- The decoder: the first instruction of a list of bytes and the bytes after it. An illegal byte of the variant is read as
`illegal`, never as a neighbour (R94, R98, R101). -/
def decode (cfg : Config) : List Byte → Except DecodeError (Instr × List Byte)
  | [] => .error .noBytes
  | b0 :: rest =>
    let n := (tableCell cfg b0).length - 1
    if rest.length < n then .error (.truncated b0)
    else .ok (decodeBytes cfg b0 (rest.getD 0 0) (rest.getD 1 0), rest.drop n)

/-- The instruction that the decoder reads from a word numbered as spec/opcode_table.json numbers it: the first byte is
bits 7..0, the second 15..8, the third 23..16, and every bit above `nbits` is 0. The variant is that of the default configuration,
which is State.reset's. -/
def decodeTableWord (nbits w : Nat) : Option Instr :=
  let v := w % 2 ^ nbits
  match decode {} [BitVec.ofNat 8 v, BitVec.ofNat 8 (v / 2 ^ 8), BitVec.ofNat 8 (v / 2 ^ 16)] with
  | .ok (i, _) => some i
  | .error _   => none

/-! ## Lengths -/

/-- Length in bytes by addressing mode (R92). -/
def Mode.length : Mode → Nat
  | .imp | .acc | .stk | .none => 1
  | .imm | .zp | .zpx | .zpy | .izx | .izy | .izp | .rel => 2
  | .abs | .abx | .aby | .ind | .iax | .zpr => 3

/-- The length of an instruction (R92). -/
def Instr.length (i : Instr) : Nat := i.mode.length

/-! ## Encoding -/

/-- One mnemonic's line of R97 for the data operand forms: the opcode byte of each mode it has. -/
structure DataBytes where
  imm : Option Byte := none
  zp  : Option Byte := none
  zpx : Option Byte := none
  zpy : Option Byte := none
  abs : Option Byte := none
  abx : Option Byte := none
  aby : Option Byte := none
  izx : Option Byte := none
  izy : Option Byte := none
  izp : Option Byte := none

/-- The byte of an operand form in a mnemonic's line of R97. -/
def DataBytes.at (t : DataBytes) : DataOperand → Option Byte
  | .imm _ => t.imm
  | .zp _  => t.zp
  | .zpx _ => t.zpx
  | .zpy _ => t.zpy
  | .abs _ => t.abs
  | .abx _ => t.abx
  | .aby _ => t.aby
  | .izx _ => t.izx
  | .izy _ => t.izy
  | .izp _ => t.izp

/-- One mnemonic's line of R97 for the read-modify-write operand forms. -/
structure RmwBytes where
  acc : Option Byte := none
  zp  : Option Byte := none
  zpx : Option Byte := none
  abs : Option Byte := none
  abx : Option Byte := none

/-- The byte of an operand form in a mnemonic's line of R97. -/
def RmwBytes.at (t : RmwBytes) : RmwOperand → Option Byte
  | .acc   => t.acc
  | .zp _  => t.zp
  | .zpx _ => t.zpx
  | .abs _ => t.abs
  | .abx _ => t.abx

/-- The opcode bytes of JMP (R97, R252). -/
def jmpByte : JumpOperand → Byte
  | .abs _ => 0x4C
  | .ind _ => 0x6C
  | .iax _ => 0x7C

/-- `base + 0x10*n`, the opcode of a bit-numbered instruction (R99). -/
def bitOpcode (base : Byte) (n : Nat) : Byte := base + 0x10#8 * BitVec.ofNat 8 n

/-- The opcode byte of an instruction (R97, R99, R105); none where the mnemonic has no such mode. -/
def opcodeOf : Instr → Option Byte
  | .lda o => DataBytes.at { izx := some 0xA1, zp := some 0xA5, imm := some 0xA9, abs := some 0xAD, izy := some 0xB1, izp := some 0xB2, zpx := some 0xB5, aby := some 0xB9, abx := some 0xBD } o
  | .ldx o => DataBytes.at { imm := some 0xA2, zp := some 0xA6, abs := some 0xAE, zpy := some 0xB6, aby := some 0xBE } o
  | .ldy o => DataBytes.at { imm := some 0xA0, zp := some 0xA4, abs := some 0xAC, zpx := some 0xB4, abx := some 0xBC } o
  | .and o => DataBytes.at { izx := some 0x21, zp := some 0x25, imm := some 0x29, abs := some 0x2D, izy := some 0x31, izp := some 0x32, zpx := some 0x35, aby := some 0x39, abx := some 0x3D } o
  | .ora o => DataBytes.at { izx := some 0x01, zp := some 0x05, imm := some 0x09, abs := some 0x0D, izy := some 0x11, izp := some 0x12, zpx := some 0x15, aby := some 0x19, abx := some 0x1D } o
  | .eor o => DataBytes.at { izx := some 0x41, zp := some 0x45, imm := some 0x49, abs := some 0x4D, izy := some 0x51, izp := some 0x52, zpx := some 0x55, aby := some 0x59, abx := some 0x5D } o
  | .cmp o => DataBytes.at { izx := some 0xC1, zp := some 0xC5, imm := some 0xC9, abs := some 0xCD, izy := some 0xD1, izp := some 0xD2, zpx := some 0xD5, aby := some 0xD9, abx := some 0xDD } o
  | .cpx o => DataBytes.at { imm := some 0xE0, zp := some 0xE4, abs := some 0xEC } o
  | .cpy o => DataBytes.at { imm := some 0xC0, zp := some 0xC4, abs := some 0xCC } o
  | .bit o => DataBytes.at { zp := some 0x24, abs := some 0x2C, zpx := some 0x34, abx := some 0x3C, imm := some 0x89 } o
  | .adc o => DataBytes.at { izx := some 0x61, zp := some 0x65, imm := some 0x69, abs := some 0x6D, izy := some 0x71, izp := some 0x72, zpx := some 0x75, aby := some 0x79, abx := some 0x7D } o
  | .sbc o => DataBytes.at { izx := some 0xE1, zp := some 0xE5, imm := some 0xE9, abs := some 0xED, izy := some 0xF1, izp := some 0xF2, zpx := some 0xF5, aby := some 0xF9, abx := some 0xFD } o
  | .sta o => DataBytes.at { izx := some 0x81, zp := some 0x85, abs := some 0x8D, izy := some 0x91, izp := some 0x92, zpx := some 0x95, aby := some 0x99, abx := some 0x9D } o
  | .stx o => DataBytes.at { zp := some 0x86, abs := some 0x8E, zpy := some 0x96 } o
  | .sty o => DataBytes.at { zp := some 0x84, abs := some 0x8C, zpx := some 0x94 } o
  | .stz o => DataBytes.at { zp := some 0x64, zpx := some 0x74, abs := some 0x9C, abx := some 0x9E } o
  | .asl o => RmwBytes.at { zp := some 0x06, acc := some 0x0A, abs := some 0x0E, zpx := some 0x16, abx := some 0x1E } o
  | .lsr o => RmwBytes.at { zp := some 0x46, acc := some 0x4A, abs := some 0x4E, zpx := some 0x56, abx := some 0x5E } o
  | .rol o => RmwBytes.at { zp := some 0x26, acc := some 0x2A, abs := some 0x2E, zpx := some 0x36, abx := some 0x3E } o
  | .ror o => RmwBytes.at { zp := some 0x66, acc := some 0x6A, abs := some 0x6E, zpx := some 0x76, abx := some 0x7E } o
  | .inc o => RmwBytes.at { acc := some 0x1A, zp := some 0xE6, abs := some 0xEE, zpx := some 0xF6, abx := some 0xFE } o
  | .dec o => RmwBytes.at { acc := some 0x3A, zp := some 0xC6, abs := some 0xCE, zpx := some 0xD6, abx := some 0xDE } o
  | .tsb o => RmwBytes.at { zp := some 0x04, abs := some 0x0C } o
  | .trb o => RmwBytes.at { zp := some 0x14, abs := some 0x1C } o
  | .rmb0 _ => some (bitOpcode 0x07 0)
  | .rmb1 _ => some (bitOpcode 0x07 1)
  | .rmb2 _ => some (bitOpcode 0x07 2)
  | .rmb3 _ => some (bitOpcode 0x07 3)
  | .rmb4 _ => some (bitOpcode 0x07 4)
  | .rmb5 _ => some (bitOpcode 0x07 5)
  | .rmb6 _ => some (bitOpcode 0x07 6)
  | .rmb7 _ => some (bitOpcode 0x07 7)
  | .smb0 _ => some (bitOpcode 0x87 0)
  | .smb1 _ => some (bitOpcode 0x87 1)
  | .smb2 _ => some (bitOpcode 0x87 2)
  | .smb3 _ => some (bitOpcode 0x87 3)
  | .smb4 _ => some (bitOpcode 0x87 4)
  | .smb5 _ => some (bitOpcode 0x87 5)
  | .smb6 _ => some (bitOpcode 0x87 6)
  | .smb7 _ => some (bitOpcode 0x87 7)
  | .bpl _ => some 0x10
  | .bmi _ => some 0x30
  | .bvc _ => some 0x50
  | .bvs _ => some 0x70
  | .bcc _ => some 0x90
  | .bcs _ => some 0xB0
  | .bne _ => some 0xD0
  | .beq _ => some 0xF0
  | .bra _ => some 0x80
  | .bbr0 _ _ => some (bitOpcode 0x0F 0)
  | .bbr1 _ _ => some (bitOpcode 0x0F 1)
  | .bbr2 _ _ => some (bitOpcode 0x0F 2)
  | .bbr3 _ _ => some (bitOpcode 0x0F 3)
  | .bbr4 _ _ => some (bitOpcode 0x0F 4)
  | .bbr5 _ _ => some (bitOpcode 0x0F 5)
  | .bbr6 _ _ => some (bitOpcode 0x0F 6)
  | .bbr7 _ _ => some (bitOpcode 0x0F 7)
  | .bbs0 _ _ => some (bitOpcode 0x8F 0)
  | .bbs1 _ _ => some (bitOpcode 0x8F 1)
  | .bbs2 _ _ => some (bitOpcode 0x8F 2)
  | .bbs3 _ _ => some (bitOpcode 0x8F 3)
  | .bbs4 _ _ => some (bitOpcode 0x8F 4)
  | .bbs5 _ _ => some (bitOpcode 0x8F 5)
  | .bbs6 _ _ => some (bitOpcode 0x8F 6)
  | .bbs7 _ _ => some (bitOpcode 0x8F 7)
  | .jmp o => some (jmpByte o)
  | .pha => some 0x48
  | .php => some 0x08
  | .phx => some 0xDA
  | .phy => some 0x5A
  | .pla => some 0x68
  | .plp => some 0x28
  | .plx => some 0xFA
  | .ply => some 0x7A
  | .jsr _ => some 0x20
  | .rts => some 0x60
  | .brk => some 0x00
  | .rti => some 0x40
  | .tax => some 0xAA
  | .tay => some 0xA8
  | .txa => some 0x8A
  | .tya => some 0x98
  | .tsx => some 0xBA
  | .txs => some 0x9A
  | .inx => some 0xE8
  | .iny => some 0xC8
  | .dex => some 0xCA
  | .dey => some 0x88
  | .clc => some 0x18
  | .sec => some 0x38
  | .cli => some 0x58
  | .sei => some 0x78
  | .cld => some 0xD8
  | .sed => some 0xF8
  | .clv => some 0xB8
  | .nop => some 0xEA
  | .wai => some 0xCB
  | .stp => some 0xDB
  | .illegal op => some op

/-- The operand bytes of a data operand, low byte of an address first (R91, R93). -/
def DataOperand.bytes : DataOperand → List Byte
  | .imm b | .zp b | .zpx b | .zpy b | .izx b | .izy b | .izp b => [b]
  | .abs w | .abx w | .aby w => [lo8 w, hi8 w]

/-- The operand bytes of a read-modify-write operand. -/
def RmwOperand.bytes : RmwOperand → List Byte
  | .acc => []
  | .zp b | .zpx b => [b]
  | .abs w | .abx w => [lo8 w, hi8 w]

/-- The operand bytes of a jump operand. -/
def JumpOperand.bytes : JumpOperand → List Byte
  | .abs w | .ind w | .iax w => [lo8 w, hi8 w]

/-- The bytes after the opcode (R91). -/
def operandBytes : Instr → List Byte
  | .lda o => o.bytes
  | .ldx o => o.bytes
  | .ldy o => o.bytes
  | .and o => o.bytes
  | .ora o => o.bytes
  | .eor o => o.bytes
  | .cmp o => o.bytes
  | .cpx o => o.bytes
  | .cpy o => o.bytes
  | .bit o => o.bytes
  | .adc o => o.bytes
  | .sbc o => o.bytes
  | .sta o => o.bytes
  | .stx o => o.bytes
  | .sty o => o.bytes
  | .stz o => o.bytes
  | .asl o => o.bytes
  | .lsr o => o.bytes
  | .rol o => o.bytes
  | .ror o => o.bytes
  | .inc o => o.bytes
  | .dec o => o.bytes
  | .tsb o => o.bytes
  | .trb o => o.bytes
  | .rmb0 zp => [zp]
  | .rmb1 zp => [zp]
  | .rmb2 zp => [zp]
  | .rmb3 zp => [zp]
  | .rmb4 zp => [zp]
  | .rmb5 zp => [zp]
  | .rmb6 zp => [zp]
  | .rmb7 zp => [zp]
  | .smb0 zp => [zp]
  | .smb1 zp => [zp]
  | .smb2 zp => [zp]
  | .smb3 zp => [zp]
  | .smb4 zp => [zp]
  | .smb5 zp => [zp]
  | .smb6 zp => [zp]
  | .smb7 zp => [zp]
  | .bpl off => [off]
  | .bmi off => [off]
  | .bvc off => [off]
  | .bvs off => [off]
  | .bcc off => [off]
  | .bcs off => [off]
  | .bne off => [off]
  | .beq off => [off]
  | .bra off => [off]
  | .bbr0 zp off => [zp, off]
  | .bbr1 zp off => [zp, off]
  | .bbr2 zp off => [zp, off]
  | .bbr3 zp off => [zp, off]
  | .bbr4 zp off => [zp, off]
  | .bbr5 zp off => [zp, off]
  | .bbr6 zp off => [zp, off]
  | .bbr7 zp off => [zp, off]
  | .bbs0 zp off => [zp, off]
  | .bbs1 zp off => [zp, off]
  | .bbs2 zp off => [zp, off]
  | .bbs3 zp off => [zp, off]
  | .bbs4 zp off => [zp, off]
  | .bbs5 zp off => [zp, off]
  | .bbs6 zp off => [zp, off]
  | .bbs7 zp off => [zp, off]
  | .jmp o => o.bytes
  | .pha => []
  | .php => []
  | .phx => []
  | .phy => []
  | .pla => []
  | .plp => []
  | .plx => []
  | .ply => []
  | .jsr target => [lo8 target, hi8 target]
  | .rts => []
  | .brk => []
  | .rti => []
  | .tax => []
  | .tay => []
  | .txa => []
  | .tya => []
  | .tsx => []
  | .txs => []
  | .inx => []
  | .iny => []
  | .dex => []
  | .dey => []
  | .clc => []
  | .sec => []
  | .cli => []
  | .sei => []
  | .cld => []
  | .sed => []
  | .clv => []
  | .nop => []
  | .wai => []
  | .stp => []
  | .illegal _ => []

/-- The bytes of an instruction at ascending addresses: the opcode byte, then the operand bytes (R90, R91); none where the
mnemonic has no such mode. -/
def encode (i : Instr) : Option (List Byte) :=
  (opcodeOf i).map fun op => op :: operandBytes i

end Sys2Proof
end

