-- ==== Sys2Proof/Machine/State.lean ====
section
/-! DEFINITION. The state of the core as plain data (spec 10_state.md), with the host-side bookkeeping of R46 and the host's
pending calls; the faults of 60_exceptions.md R402; the state after reset (R48, R451). -/

namespace Sys2Proof.Machine

/-- The direction of a counted bus access (R13, R61). -/
inductive BusDir where
  | read
  | write
  deriving DecidableEq, Repr

/-- One counted bus access `(address, value, Read|Write)` (R13, R340). -/
structure BusAccess where
  addr  : Word
  value : Byte
  dir   : BusDir
  deriving DecidableEq, Repr

/-- What the host may call between instructions (R26, R430, R410): Step(), the three requests, the register, flag and
packed-status setters, and Poke. -/
inductive HostCall where
  | step
  | reset
  | nmi
  | irq
  | setA  (v : Byte)
  | setX  (v : Byte)
  | setY  (v : Byte)
  | setS  (v : Byte)
  | setPC (v : Word)
  | setC  (b : Bool)
  | setZ  (b : Bool)
  | setI  (b : Bool)
  | setD  (b : Bool)
  | setV  (b : Bool)
  | setN  (b : Bool)
  | setP  (v : Byte)
  | poke  (a : Word) (v : Byte)
  deriving DecidableEq, Repr

/-- The state: the 54 bits of R20 and the memory of R60; the parameters (notes/assumptions/1.md); the bookkeeping of R46; the
host's pending calls (notes/assumptions/4.md); the count of free values used, the model's own (notes/assumptions/7.md). -/
structure State where
  /-- accumulator (R21) -/
  A : Byte
  /-- index register (R22) -/
  X : Byte
  /-- index register (R23) -/
  Y : Byte
  /-- stack pointer, the low byte of the next free stack address (R24) -/
  S : Byte
  /-- program counter (R25) -/
  PC : Word
  /-- Carry (R36) -/
  C : Bool
  /-- Zero (R37) -/
  Z : Bool
  /-- Interrupt-disable (R38) -/
  I : Bool
  /-- Decimal (R39) -/
  D : Bool
  /-- Overflow (R40) -/
  V : Bool
  /-- Negative (R41) -/
  N : Bool
  /-- memory: (address, byte) pairs, addresses rising, no entry equal to what an unlisted address reads as (R60) -/
  mem : List Host.Cell
  /-- the counted accesses of the step in progress or of the last step, oldest first (R13, R62) -/
  trace : List BusAccess
  /-- the cycle counter: one for each counted access (R431) -/
  cycles : Nat
  /-- the instruction counter: one for each completed instruction (R431) -/
  instrs : Nat
  /-- the host's calls not yet made, oldest first -/
  host : List HostCall
  /-- how many free values have been used -/
  free : Nat
  /-- the parameters P1 to P8 (R9) -/
  cfg : Config
  deriving DecidableEq, Repr

/-- The faults of R402, each with the address of the opcode byte, the byte, and the counted accesses that the step has made: the
opcode fetch and no other (R365, R401). A fault ends the run and no state after it is defined (R401); the accesses are the host's
bookkeeping (R46), of which their number is the step's cycle count (R62, R368). -/
inductive Fault where
  /-- Raised by the meaning of `illegal`, and by an instruction that the variant or P2 lacks (R404). Safe: the spec's own fault. -/
  | illegalOpcode (pc : Word) (opcode : Byte) (accesses : List BusAccess)
  /-- Raised by the meanings of WAI and STP on CMOS65C02 (R406). Safe: the spec's own fault. -/
  | unsupportedInstruction (pc : Word) (opcode : Byte) (accesses : List BusAccess)
  /-- Raised by a term of Instr whose mnemonic has no such addressing mode; no byte decodes to one (R405, R95). Safe. -/
  | unhandledAddressingMode (pc : Word) (opcode : Byte) (accesses : List BusAccess)
  deriving DecidableEq, Repr

/-- Reasons the model itself has no meaning for an instruction. -/
inductive Refusal where
  /-- Raised by `exec` for an instruction whose meaning is not written yet. Safe. No arm raises it now. -/
  | notModelled (mnemonic : String)
  deriving DecidableEq, Repr

/-- The machine right after Reset (R48, R451): A, X, Y and the six flags 0, S = 0xFD, PC the little-endian word at
0xFFFC, 0xFFFD, which are not listed in the empty memory and read 0x00 (notes/assumptions/2.md). The parameters are R9's defaults with
CMOS65C02 (notes/assumptions/1.md); counters 0 and empty trace and host list (notes/assumptions/4.md to 7.md). -/
def State.reset : State where
  A := 0x00
  X := 0x00
  Y := 0x00
  S := 0xFD
  PC := 0x0000
  C := false
  Z := false
  I := false
  D := false
  V := false
  N := false
  mem := []
  trace := []
  cycles := 0
  instrs := 0
  host := []
  free := 0
  cfg := {}

end Sys2Proof.Machine
end

