-- ==== Sys2Proof/Machine/Ops.lean ====
section
/-! DEFINITION. The operations over memory, the bus, the stack and the program counter (spec 20_memory.md, 10_state.md), the
shared exception entry with its return (60_exceptions.md R415, R419), and the guard that every meaning passes. -/

namespace Sys2Proof.Machine

/-! ## Memory -/

/-- What an address that is not listed reads as: 0x00, a DESIGN CHOICE (R81; notes/assumptions/2.md). -/
def unlistedByte : Byte := 0x00

/-- The byte at an address. -/
def memRead : List Host.Cell → Nat → Byte
  | [], _ => unlistedByte
  | (b, v) :: m, a => if b = a then v else memRead m a

/-- Put `(a, v)` in its place, replacing the entry of `a`. -/
def memInsert : List Host.Cell → Nat → Byte → List Host.Cell
  | [], a, v => [(a, v)]
  | (b, w) :: m, a, v =>
    if a < b then (a, v) :: (b, w) :: m
    else if a = b then (a, v) :: m
    else (b, w) :: memInsert m a v

/-- Take out every entry of `a`. -/
def memErase : List Host.Cell → Nat → List Host.Cell
  | [], _ => []
  | (b, w) :: m, a => if b = a then memErase m a else (b, w) :: memErase m a

/-- Write a byte, keeping the canonical form: the value an unlisted address reads as removes the entry. -/
def memWrite (m : List Host.Cell) (a : Nat) (v : Byte) : List Host.Cell :=
  if v = unlistedByte then memErase m a else memInsert m a v

/-- Every listed address is above `lo`, below 65536 and rising, and no entry holds what an unlisted address reads as. -/
def memWfFrom : Nat → List Host.Cell → Bool
  | _, [] => true
  | lo, (a, v) :: m => decide (lo ≤ a) && decide (a < 65536) && decide (v ≠ unlistedByte) && memWfFrom (a + 1) m

/-- The canonical form of memory. -/
def memWf (m : List Host.Cell) : Bool := memWfFrom 0 m

/-! ## The bus contract (R61) -/

/-- `Peek(a)`: uncounted. -/
def State.peek (s : State) (a : Word) : Byte := memRead s.mem a.toNat

/-- `Poke(a, v)`: uncounted. -/
def State.poke (s : State) (a : Word) (v : Byte) : State := { s with mem := memWrite s.mem a.toNat v }

/-- One counted access: appended to the trace, one cycle (R13, R431). -/
def State.record (s : State) (a : Word) (v : Byte) (d : BusDir) : State :=
  { s with trace := s.trace ++ [⟨a, v, d⟩], cycles := s.cycles + 1 }

/-- The state after `MemRead(a, 1)`; the value read is `s.peek a`, since a read changes no memory (R13, R70). -/
def State.readBus (s : State) (a : Word) : State := s.record a (s.peek a) .read

/-- `MemWrite(a, 1, v)` (R13). -/
def State.writeBus (s : State) (a : Word) (v : Byte) : State := (s.poke a v).record a v .write

/-- `Fetch()`: a counted read at PC, then PC plus 1 modulo 65536; the byte is `s.peek s.PC` (R13, R25). -/
def State.fetch (s : State) : State :=
  let t := s.readBus s.PC
  { t with PC := s.PC + 1 }

/-- `BeginTransaction()`: the accesses counted from here on are those of one step (R62). -/
def State.beginTransaction (s : State) : State := { s with trace := [] }

/-- `EndTransaction()`: the number of counted accesses since `BeginTransaction()` (R62). -/
def State.endTransaction (s : State) : Nat := s.trace.length

/-! ## Dummy accesses (R343) -/

/-- The state as an address function sees it. No instruction sets PC before a dummy access but by fetching, so PC is the address
after the last instruction byte fetched. -/
def State.addressInputs (s : State) (k : DummyKind) (table : Word) : AddressInputs :=
  { variant := s.cfg.variant, kind := k, table := table, next := s.PC, A := s.A, X := s.X, Y := s.Y, S := s.S
    C := s.C, Z := s.Z, I := s.I, D := s.D, V := s.V, N := s.N, mem := s.mem }

/-- The address that an address function gives. -/
def evalAddress (x : AddressInputs) : AddressFn → Word
  | .table      => x.table
  | .const w    => w
  | .nextByte   => x.next
  | .lastByte   => x.next - 1
  | .A          => zeroPage x.A
  | .X          => zeroPage x.X
  | .Y          => zeroPage x.Y
  | .S          => zeroPage x.S
  | .byteAt e   => zeroPage (memRead x.mem (evalAddress x e).toNat)
  | .add e f    => evalAddress x e + evalAddress x f
  | .sub e f    => evalAddress x e - evalAddress x f
  | .inPage e f => word (hi8 (evalAddress x e)) (lo8 (evalAddress x f))
  | .any n      => Config.anyAddress n x

/-- The address function of a kind of dummy access: P5 for the extra decimal read, else P4's cell for the variant and the kind, else
R343's table (R9, R343). -/
def dummyFn (cfg : Config) (k : DummyKind) : AddressFn :=
  if k = .cmosDecExtra then cfg.cmosDecExtraAddress
  else ((cfg.dummyAddresses.find? fun e => e.1 = (cfg.variant, k)).map (·.2)).getD .table

/-- `DUMMY_ADDR(VARIANT, kind)`; `a` is the address of R343's table. -/
def dummyAddr (s : State) (k : DummyKind) (a : Word) : Word := evalAddress (s.addressInputs k a) (dummyFn s.cfg k)

/-- `Dummy(kind)`: a counted read whose value is discarded (R13). -/
def State.dummy (s : State) (k : DummyKind) (a : Word) : State := s.readBus (dummyAddr s k a)

/-! ## The stack (R24, R27 to R29) -/

/-- `Push(v)`: write at 0x0100 + S, then S minus 1 modulo 256 (R27). -/
def State.push (s : State) (v : Byte) : State :=
  let t := s.writeBus (stackAddr s.S) v
  { t with S := s.S - 1 }

/-- The byte that `Pull()` returns: at 0x0100 + (S + 1) (R28). -/
def State.pulled (s : State) : Byte := s.peek (stackAddr (s.S + 1))

/-- The state after `Pull()`: S plus 1 modulo 256, then the counted read (R28). -/
def State.pull (s : State) : State :=
  let t := { s with S := s.S + 1 }
  t.readBus (stackAddr (s.S + 1))

/-- A word is pushed high byte first (R29). -/
def State.pushWord (s : State) (w : Word) : State := (s.push (hi8 w)).push (lo8 w)

/-! ## Register and flag writes (R13, R26) -/

/-- `A <- v`. -/
def State.setA (s : State) (v : Byte) : State := { s with A := v }
/-- `X <- v`. -/
def State.setX (s : State) (v : Byte) : State := { s with X := v }
/-- `Y <- v`. -/
def State.setY (s : State) (v : Byte) : State := { s with Y := v }
/-- `S <- v`. -/
def State.setS (s : State) (v : Byte) : State := { s with S := v }
/-- `PC <- v`. -/
def State.setPC (s : State) (v : Word) : State := { s with PC := v }
/-- `C <- b`. -/
def State.setC (s : State) (b : Bool) : State := { s with C := b }
/-- `Z <- b`. -/
def State.setZ (s : State) (b : Bool) : State := { s with Z := b }
/-- `I <- b`. -/
def State.setI (s : State) (b : Bool) : State := { s with I := b }
/-- `D <- b`. -/
def State.setD (s : State) (b : Bool) : State := { s with D := b }
/-- `V <- b`. -/
def State.setV (s : State) (b : Bool) : State := { s with V := b }
/-- `N <- b`. -/
def State.setN (s : State) (b : Bool) : State := { s with N := b }

/-! ## The packed status byte (R31 to R35) -/

/-- The flag as a byte with the bits of `mask`. -/
def flagBits (b : Bool) (mask : Byte) : Byte := if b then mask else 0

/-- `Pack(b)`: the status byte with Break bit `b` and Unused 1 (R33). -/
def State.pack (s : State) (b : Bool) : Byte :=
  flagBits s.N 0x80 ||| flagBits s.V 0x40 ||| 0x20 ||| flagBits b 0x10 ||| flagBits s.D 0x08 ||| flagBits s.I 0x04 |||
    flagBits s.Z 0x02 ||| flagBits s.C 0x01

/-- `Unpack(v)`: exactly six flags; bits 4 and 5 are ignored (R34). -/
def State.unpack (s : State) (v : Byte) : State :=
  { s with C := bitOf v 0, Z := bitOf v 1, I := bitOf v 2, D := bitOf v 3, V := bitOf v 6, N := bitOf v 7 }

/-! ## Taking an exception, and the return -/

/-- The NMI vector (R73). -/
def vecNMI : Word := 0xFFFA
/-- The reset vector (R73). -/
def vecReset : Word := 0xFFFC
/-- The vector that IRQ and BRK share (R73). -/
def vecIRQ : Word := 0xFFFE

/-- The word of a vector, low byte first (R73). -/
def State.vectorWord (s : State) (v : Word) : Word := word (s.peek (v + 1)) (s.peek v)

/-- The vector fetch: counted reads, low then high, or Peek (R73, R281, R415). -/
def State.fetchVector (s : State) (v : Word) (counted : Bool) : State :=
  let t := if counted then (s.readBus v).readBus (v + 1) else s
  t.setPC (s.vectorWord v)

/-- The flags on entry: I set, and D cleared on CMOS65C02 only (R38, R39). -/
def State.enterFlags (s : State) : State :=
  { s with I := true, D := match s.cfg.variant with | .nmos6502 => s.D | .cmos65C02 => false }

/-- `InterruptEntry(vec, b)`: push PC high then low, push the status as it is now with Break bit `b`, set I (and clear D on
CMOS65C02), fetch PC from the vector. NMI, IRQ and BRK share it (R415). -/
def State.interruptEntry (s : State) (vec : Word) (brk counted : Bool) : State :=
  (((s.pushWord s.PC).push (s.pack brk)).enterFlags).fetchVector vec counted

/-- The return from an interrupt: pull the status into the six flags, then PC low, then PC high, nothing added (R282, R419). -/
def State.interruptReturn (s : State) : State :=
  let t1 := s.pull.unpack s.pulled
  let t2 := t1.pull
  let t3 := t2.pull
  t3.setPC (word t2.pulled t1.pulled)

/-! ## The guard of every meaning -/

/-- A meaning's effect takes place when the term is an entry of the variant's table; an instruction the variant or P2 lacks is
an illegal opcode (R404), a mode the mnemonic does not have is an unhandled mode (R405). A fault has made the opcode fetch and no
other access (R365, R401). -/
def runEntry (i : Instr) (s : State) (t : State) : Host.Outcome State Fault Refusal :=
  match opcodeOf i with
  | none    => .fault (.unhandledAddressingMode s.PC (s.peek s.PC) s.fetch.trace)
  | some op => if isIllegalByte s.cfg op then .fault (.illegalOpcode s.PC op s.fetch.trace) else .next t

end Sys2Proof.Machine
end

