-- ==== Sys2Proof/Machine/Flags.lean ====
section
/-! DEFINITION. The flag and result computations: SetNZ (R13), Compare (R151), ADC and SBC, binary and decimal, per variant
(42_adc_sbc.md R180 to R191), shifts and rotates (44_rmw.md R212 to R215). -/

namespace Sys2Proof.Machine

/-- `SetNZ(v)` (R13). -/
def State.setNZ (s : State) (v : Byte) : State := { s with Z := v == 0, N := bitOf v 7 }

/-- `Compare(r, M)`: C the unsigned no-borrow, Z equality, N bit 7 of the wrapped difference (R151). -/
def State.compare (s : State) (r m : Byte) : State :=
  { s with C := decide (m.toNat ≤ r.toNat), Z := r == m, N := bitOf (r - m) 7 }

/-- What an addition or subtraction leaves: the accumulator and the four flags it writes. -/
structure AluResult where
  A : Byte
  N : Bool
  V : Bool
  Z : Bool
  C : Bool
  deriving DecidableEq, Repr

/-- The overflow of an addition: `((~(a ^ m)) & (a ^ r))[7]` (R181). -/
def addOverflow (a m r : Byte) : Bool := bitOf (~~~(a ^^^ m) &&& (a ^^^ r)) 7

/-- The sum of `AddBin`, of 9 bits (R181). -/
def binSum (a m : Byte) (c : Bool) : Nat := a.toNat + m.toNat + flagNat c

/-- `AddBin(a, m, c)` with SetNZ of its result: binary ADC (R181, R182). -/
def adcBinary (a m : Byte) (c : Bool) : AluResult :=
  let sum := binSum a m c
  let r := BitVec.ofNat 8 sum
  { A := r, N := bitOf r 7, V := addOverflow a m r, Z := r == 0, C := decide (256 ≤ sum) }

/-- Binary SBC: the addition of the complement of the operand (R183). -/
def sbcBinary (a m : Byte) (c : Bool) : AluResult := adcBinary a (m ^^^ 0xFF) c

/-- `v[3:0]` as a number. -/
def loDigit (v : Byte) : Nat := v.toNat % 16

/-- `v & 0xF0` as a number. -/
def hiDigit (v : Byte) : Nat := v.toNat / 16 * 16

/-- The low digit sum of a decimal ADC, corrected (R184 lines 2 and 3). -/
def decLowSum (a m : Byte) (c : Bool) : Nat :=
  let al := loDigit a + loDigit m + flagNat c
  if 0x0A ≤ al then (al + 0x06) % 16 + 0x10 else al

/-- The intermediate sum of a decimal ADC: low digit corrected, high digit not yet (R184). -/
def decMidSum (a m : Byte) (c : Bool) : Nat := hiDigit a + hiDigit m + decLowSum a m c

/-- The corrected sum of a decimal ADC (R184). -/
def decSum (a m : Byte) (c : Bool) : Nat :=
  let s := decMidSum a m c
  if 0xA0 ≤ s then s + 0x60 else s

/-- Decimal ADC on NMOS6502: Z from the binary sum, N from the sum that P8 names, V from the intermediate sum, C and A from the
corrected sum (R184). -/
def adcDecimalNmos (p8 : DecAdcN) (a m : Byte) (c : Bool) : AluResult :=
  let bin := BitVec.ofNat 8 (binSum a m c)
  let mid := BitVec.ofNat 8 (decMidSum a m c)
  { A := BitVec.ofNat 8 (decSum a m c)
    N := match p8 with | .intermediate => bitOf mid 7 | .binary => bitOf bin 7
    V := addOverflow a m mid
    Z := bin == 0
    C := decide (0x100 ≤ decSum a m c) }

/-- Decimal ADC on CMOS65C02: as on NMOS6502, but N and Z from the final accumulator (R186). -/
def adcDecimalCmos (a m : Byte) (c : Bool) : AluResult :=
  let mid := BitVec.ofNat 8 (decMidSum a m c)
  let r := BitVec.ofNat 8 (decSum a m c)
  { A := r, N := bitOf r 7, V := addOverflow a m mid, Z := r == 0, C := decide (0x100 ≤ decSum a m c) }

/-- The low digit difference of a decimal SBC (R185, R187). -/
def decLowDiff (a m : Byte) (c : Bool) : Int := (loDigit a : Int) - loDigit m + flagNat c - 1

/-- The corrected difference on NMOS6502; `& 0x0F` of a negative number is its remainder modulo 16 (R185). -/
def decDiffNmos (a m : Byte) (c : Bool) : Int :=
  let al := decLowDiff a m c
  let al := if al < 0 then (al - 0x06) % 16 - 0x10 else al
  let s := (hiDigit a : Int) - hiDigit m + al
  if s < 0 then s - 0x60 else s

/-- The corrected difference on CMOS65C02 (R187). -/
def decDiffCmos (a m : Byte) (c : Bool) : Int :=
  let al := decLowDiff a m c
  let s := (a.toNat : Int) - m.toNat + flagNat c - 1
  let s := if s < 0 then s - 0x60 else s
  if al < 0 then s - 0x06 else s

/-- Decimal SBC on NMOS6502: all four flags those of the binary subtraction, A corrected (R185). -/
def sbcDecimalNmos (a m : Byte) (c : Bool) : AluResult :=
  { sbcBinary a m c with A := BitVec.ofInt 8 (decDiffNmos a m c) }

/-- Decimal SBC on CMOS65C02: C and V of the binary subtraction, N and Z of the final accumulator (R187). -/
def sbcDecimalCmos (a m : Byte) (c : Bool) : AluResult :=
  let r := BitVec.ofInt 8 (decDiffCmos a m c)
  { sbcBinary a m c with A := r, N := bitOf r 7, Z := r == 0 }

/-- ADC: binary when D = 0, else the variant's decimal rule (R180). -/
def adcResult (cfg : Config) (d : Bool) (a m : Byte) (c : Bool) : AluResult :=
  if d then
    match cfg.variant with
    | .nmos6502  => adcDecimalNmos cfg.nmosDecAdcN a m c
    | .cmos65C02 => adcDecimalCmos a m c
  else adcBinary a m c

/-- SBC: binary when D = 0, else the variant's decimal rule (R180). -/
def sbcResult (cfg : Config) (d : Bool) (a m : Byte) (c : Bool) : AluResult :=
  if d then
    match cfg.variant with
    | .nmos6502  => sbcDecimalNmos a m c
    | .cmos65C02 => sbcDecimalCmos a m c
  else sbcBinary a m c

/-- Write an ADC or SBC result: A and N, V, Z, C (R182, R183). -/
def State.setAlu (s : State) (r : AluResult) : State := { s with A := r.A, N := r.N, V := r.V, Z := r.Z, C := r.C }

/-- ASL: bit 0 of the result is 0 (R212). -/
def aslByte (v : Byte) : Byte := v <<< 1
/-- LSR: bit 7 of the result is 0 (R213). -/
def lsrByte (v : Byte) : Byte := v >>> 1
/-- ROL: the old carry enters at bit 0 (R214). -/
def rolByte (c : Bool) (v : Byte) : Byte := v <<< 1 ||| flagBits c 0x01
/-- ROR: the old carry enters at bit 7 (R215). -/
def rorByte (c : Bool) (v : Byte) : Byte := v >>> 1 ||| flagBits c 0x80

/-- Z from A AND a memory byte: BIT, TSB, TRB (R161, R218, R219). -/
def State.setZAnd (s : State) (m : Byte) : State := { s with Z := (s.A &&& m) == 0 }

end Sys2Proof.Machine
end

