-- ==== Sys2Proof/Machine/Operands.lean ====
section
/-! DEFINITION. The addressing modes: the effective address and page-crossing of each operand form (spec 40_addressing_modes.md), and
the counted accesses each makes (48_bus_access_patterns.md). Every function is applied to the state in which PC is the address
of the opcode byte; the accesses start with the opcode fetch (R341). -/

namespace Sys2Proof.Machine

/-! ## Pointers -/

/-- The 16-bit pointer held in page 0 at `b`: its second byte wraps within page 0 (R131 to R133). -/
def State.zpPointer (s : State) (b : Byte) : Word := word (s.peek (zeroPage (b + 1))) (s.peek (zeroPage b))

/-- The two counted reads of a page 0 pointer, low byte first. -/
def State.readZpPointer (s : State) (b : Byte) : State := (s.readBus (zeroPage b)).readBus (zeroPage (b + 1))

/-! ## Effective addresses -/

/-- The base of an indexed mode before the index is added (R129, R130, R132); the address itself in the others. -/
def State.eaBase (s : State) (o : DataOperand) : Word :=
  match o with
  | .imm _ => s.PC + 1
  | .zp b  => zeroPage b
  | .zpx b => zeroPage (b + s.X)
  | .zpy b => zeroPage (b + s.Y)
  | .abs w => w
  | .abx w => w
  | .aby w => w
  | .izx b => s.zpPointer (b + s.X)
  | .izy b => s.zpPointer b
  | .izp b => s.zpPointer b

/-- The index added to the base (R129, R130, R132). -/
def State.eaIndex (s : State) (o : DataOperand) : Byte :=
  match o with
  | .abx _ => s.X
  | .aby _ => s.Y
  | .izy _ => s.Y
  | .imm _ | .zp _ | .zpx _ | .zpy _ | .abs _ | .izx _ | .izp _ => 0

/-- The effective address (R124 to R133). -/
def State.ea (s : State) (o : DataOperand) : Word := s.eaBase o + word 0 (s.eaIndex o)

/-- The effective address lies in another page than the base (R134). -/
def State.crossed (s : State) (o : DataOperand) : Bool := hi8 (s.ea o) != hi8 (s.eaBase o)

/-- `unc`: the low byte indexed, the high byte not yet corrected (R134). -/
def State.unc (s : State) (o : DataOperand) : Word :=
  word (hi8 (s.eaBase o)) (lo8 (s.eaBase o) + s.eaIndex o)

/-- The operand of a READ-class instruction: the byte at the effective address; for IMM the operand byte (R124, R150). -/
def State.operand (s : State) (o : DataOperand) : Byte :=
  match o with
  | .imm b => b
  | .zp _ | .zpx _ | .zpy _ | .abs _ | .abx _ | .aby _ | .izx _ | .izy _ | .izp _ => s.peek (s.ea o)

/-! ## The accesses before the data access -/

/-- The class of the data access, for the page-crossing rule. -/
inductive AccessClass where
  | read
  | write
  | rmw
  deriving DecidableEq, Repr

/-- The `index_fixup` read of ABX, ABY and IZY: a READ makes it only when a page is crossed, a WRITE or RMW always (R134, R349,
R351). -/
def State.indexFixup (t : State) (k : AccessClass) (crossed : Bool) (unc : Word) : State :=
  match k, crossed with
  | .read, false => t
  | .read, true | .write, _ | .rmw, _ => t.dummy .indexFixup unc

/-- Opcode fetch, operand fetches, pointer reads and dummy reads, up to the data access (R345 to R352). -/
def State.access (s : State) (o : DataOperand) (k : AccessClass) : State :=
  match o with
  | .imm _ => s.fetch
  | .zp _  => s.fetch.fetch
  | .zpx b => s.fetch.fetch.dummy .zpIndex (zeroPage b)
  | .zpy b => s.fetch.fetch.dummy .zpIndex (zeroPage b)
  | .abs _ => s.fetch.fetch.fetch
  | .abx _ => s.fetch.fetch.fetch.indexFixup k (s.crossed o) (s.unc o)
  | .aby _ => s.fetch.fetch.fetch.indexFixup k (s.crossed o) (s.unc o)
  | .izx b => (s.fetch.fetch.dummy .zpIndex (zeroPage b)).readZpPointer (b + s.X)
  | .izy b => (s.fetch.fetch.readZpPointer b).indexFixup k (s.crossed o) (s.unc o)
  | .izp b => s.fetch.fetch.readZpPointer b

/-- A READ-class instruction up to and with its one final data read; for IMM that is the fetch of the operand byte (R150). -/
def State.load (s : State) (o : DataOperand) : State :=
  match o with
  | .imm _ => s.fetch.fetch
  | .zp _ | .zpx _ | .zpy _ | .abs _ | .abx _ | .aby _ | .izx _ | .izy _ | .izp _ => (s.access o .read).readBus (s.ea o)

/-- A WRITE-class instruction: the destination is never read (R200). -/
def State.store (s : State) (o : DataOperand) (v : Byte) : State :=
  (s.access o .write).writeBus (s.ea o) v

/-! ## Implied and read-modify-write -/

/-- The two accesses of IMPLIED, and the first two of PUSH, PULL, RTS and RTI: the opcode fetch and `Dummy(after_opcode)`, which does
not advance PC (R300, R344). An IMP or ACC instruction has its effect after them (notes/assumptions/12.md). -/
def State.implied (s : State) : State := s.fetch.dummy .afterOpcode (s.PC + 1)

/-- The memory form of a read-modify-write operand as a data operand; none for the accumulator. -/
def rmwData : RmwOperand → Option DataOperand
  | .acc   => none
  | .zp b  => some (.zp b)
  | .zpx b => some (.zpx b)
  | .abs w => some (.abs w)
  | .abx w => some (.abx w)

/-- The old value: A, or the byte at the effective address (R210, R211). -/
def State.rmwOld (s : State) (o : RmwOperand) : Byte :=
  match rmwData o with
  | none   => s.A
  | some d => s.peek (s.ea d)

/-- The middle access of a read-modify-write: the write-back of the old value, or with P3 = read on CMOS65C02 a second read (R210,
R369). -/
def State.rmwMiddle (t : State) (ea : Word) (old : Byte) : State :=
  match t.cfg.variant, t.cfg.cmosRmwSecondAccess with
  | .cmos65C02, .read => t.readBus ea
  | .cmos65C02, .writeOld | .nmos6502, _ => t.writeBus ea old

/-- Read, middle access and write of the new value in memory (R210); for the accumulator the implied pattern and A (R211). -/
def State.modify (s : State) (o : RmwOperand) (new : Byte) : State :=
  match rmwData o with
  | none   => s.implied.setA new
  | some d => (((s.access d .rmw).readBus (s.ea d)).rmwMiddle (s.ea d) (s.rmwOld o)).writeBus (s.ea d) new

/-! ## Branches and jumps -/

/-- The dummy reads of a taken branch, PC being `next`: one, and one more when the target's page is not that of `next` (R240,
R343). -/
def State.branchDummies (s : State) (target : Word) : State :=
  let next := s.PC
  let t := s.dummy .branchTaken next
  if hi8 target != hi8 next then
    t.dummy .branchCross (match s.cfg.variant with | .nmos6502 => word (hi8 next) (lo8 target) | .cmos65C02 => next)
  else t

/-- The rest of a branch once PC is `next` and the displacement is known: not taken, nothing; taken, the dummy reads, and PC is the
target (R240). -/
def State.branch (s : State) (cond : Bool) (off : Byte) : State :=
  let target := s.PC + sext16 off
  if cond then (s.branchDummies target).setPC target else s

/-- The address of the second pointer byte of JMP (abs): within the page on NMOS6502, the next address on CMOS65C02 (R137). -/
def jumpPointerHigh (cfg : Config) (ptr : Word) : Word :=
  match cfg.variant with
  | .nmos6502  => word (hi8 ptr) (lo8 ptr + 1)
  | .cmos65C02 => ptr + 1

/-- The target of JMP (R128, R137, R138). -/
def State.jumpTarget (s : State) (o : JumpOperand) : Word :=
  match o with
  | .abs w => w
  | .ind w => word (s.peek (jumpPointerHigh s.cfg w)) (s.peek w)
  | .iax w => word (s.peek (w + word 0 s.X + 1)) (s.peek (w + word 0 s.X))

/-- The accesses of JMP (R355 to R357). -/
def State.jumpAccess (s : State) (o : JumpOperand) : State :=
  match o with
  | .abs _ => s.fetch.fetch.fetch
  | .ind w => (s.fetch.fetch.fetch.readBus w).readBus (jumpPointerHigh s.cfg w)
  | .iax w => ((s.fetch.fetch.fetch.dummy .iaxInternal (s.PC + 2)).readBus (w + word 0 s.X)).readBus (w + word 0 s.X + 1)

end Sys2Proof.Machine
end

