-- ==== Sys2Proof/Machine/AddSub.lean ====
section
/-! DEFINITION. ADC and SBC (spec 42_adc_sbc.md R180 to R191). -/

namespace Sys2Proof.Machine

/-- The extra counted read of a decimal ADC or SBC on CMOS65C02, last, at the address of P5, by default the effective address; none
otherwise. It comes after the arithmetic (R186, R187), so a P5 function is given A and the flags of the result. D is as it was when
the instruction started, since neither the load nor the arithmetic changes it (R188, R364). -/
def State.decimalExtra (t : State) (ea : Word) : State :=
  match t.cfg.variant, t.D with
  | .cmos65C02, true => t.dummy .cmosDecExtra ea
  | .cmos65C02, false | .nmos6502, _ => t

/-- ADC (R182, R184, R186). -/
def execAdc (o : DataOperand) (s : State) : Host.Outcome State Fault Refusal :=
  runEntry (.adc o) s
    (((s.load o).setAlu (adcResult s.cfg s.D s.A (s.operand o) s.C)).decimalExtra (s.ea o))

/-- SBC (R183, R185, R187). -/
def execSbc (o : DataOperand) (s : State) : Host.Outcome State Fault Refusal :=
  runEntry (.sbc o) s
    (((s.load o).setAlu (sbcResult s.cfg s.D s.A (s.operand o) s.C)).decimalExtra (s.ea o))

end Sys2Proof.Machine
end

