-- ==== Sys2Proof/Machine/BranchJump.lean ====
section
/-! DEFINITION. Branches and jumps (spec 45_branch_jump.md R240 to R253). -/

namespace Sys2Proof.Machine

/-- BPL (R241). -/
def execBpl (off : Byte) (s : State) : Host.Outcome State Fault Refusal :=
  runEntry (.bpl off) s (s.fetch.fetch.branch (!s.N) off)

/-- BMI (R242). -/
def execBmi (off : Byte) (s : State) : Host.Outcome State Fault Refusal :=
  runEntry (.bmi off) s (s.fetch.fetch.branch s.N off)

/-- BVC (R243). -/
def execBvc (off : Byte) (s : State) : Host.Outcome State Fault Refusal :=
  runEntry (.bvc off) s (s.fetch.fetch.branch (!s.V) off)

/-- BVS (R244). -/
def execBvs (off : Byte) (s : State) : Host.Outcome State Fault Refusal :=
  runEntry (.bvs off) s (s.fetch.fetch.branch s.V off)

/-- BCC (R245). -/
def execBcc (off : Byte) (s : State) : Host.Outcome State Fault Refusal :=
  runEntry (.bcc off) s (s.fetch.fetch.branch (!s.C) off)

/-- BCS (R246). -/
def execBcs (off : Byte) (s : State) : Host.Outcome State Fault Refusal :=
  runEntry (.bcs off) s (s.fetch.fetch.branch s.C off)

/-- BNE (R247). -/
def execBne (off : Byte) (s : State) : Host.Outcome State Fault Refusal :=
  runEntry (.bne off) s (s.fetch.fetch.branch (!s.Z) off)

/-- BEQ (R248). -/
def execBeq (off : Byte) (s : State) : Host.Outcome State Fault Refusal :=
  runEntry (.beq off) s (s.fetch.fetch.branch s.Z off)

/-- BRA (R249). -/
def execBra (off : Byte) (s : State) : Host.Outcome State Fault Refusal :=
  runEntry (.bra off) s (s.fetch.fetch.branch true off)

/-- The accesses of BBRn and BBSn before the branch: the zero page byte is read between the operand fetches and read again (R250,
R354). -/
def State.bitBranchAccess (s : State) (zp : Byte) : State :=
  ((s.fetch.fetch.readBus (zeroPage zp)).dummy .zprReread (zeroPage zp)).fetch

/-- BBRn, BBSn: branch when bit n of the zero page byte has the value `want` (R250, R251). -/
def State.bitBranch (s : State) (n : Nat) (want : Bool) (zp off : Byte) : State :=
  (s.bitBranchAccess zp).branch (bitOf (s.peek (zeroPage zp)) n == want) off

/-- BBR0 (R250). -/
def execBbr0 (zp off : Byte) (s : State) : Host.Outcome State Fault Refusal :=
  runEntry (.bbr0 zp off) s (s.bitBranch 0 false zp off)

/-- BBR1 (R250). -/
def execBbr1 (zp off : Byte) (s : State) : Host.Outcome State Fault Refusal :=
  runEntry (.bbr1 zp off) s (s.bitBranch 1 false zp off)

/-- BBR2 (R250). -/
def execBbr2 (zp off : Byte) (s : State) : Host.Outcome State Fault Refusal :=
  runEntry (.bbr2 zp off) s (s.bitBranch 2 false zp off)

/-- BBR3 (R250). -/
def execBbr3 (zp off : Byte) (s : State) : Host.Outcome State Fault Refusal :=
  runEntry (.bbr3 zp off) s (s.bitBranch 3 false zp off)

/-- BBR4 (R250). -/
def execBbr4 (zp off : Byte) (s : State) : Host.Outcome State Fault Refusal :=
  runEntry (.bbr4 zp off) s (s.bitBranch 4 false zp off)

/-- BBR5 (R250). -/
def execBbr5 (zp off : Byte) (s : State) : Host.Outcome State Fault Refusal :=
  runEntry (.bbr5 zp off) s (s.bitBranch 5 false zp off)

/-- BBR6 (R250). -/
def execBbr6 (zp off : Byte) (s : State) : Host.Outcome State Fault Refusal :=
  runEntry (.bbr6 zp off) s (s.bitBranch 6 false zp off)

/-- BBR7 (R250). -/
def execBbr7 (zp off : Byte) (s : State) : Host.Outcome State Fault Refusal :=
  runEntry (.bbr7 zp off) s (s.bitBranch 7 false zp off)

/-- BBS0 (R251). -/
def execBbs0 (zp off : Byte) (s : State) : Host.Outcome State Fault Refusal :=
  runEntry (.bbs0 zp off) s (s.bitBranch 0 true zp off)

/-- BBS1 (R251). -/
def execBbs1 (zp off : Byte) (s : State) : Host.Outcome State Fault Refusal :=
  runEntry (.bbs1 zp off) s (s.bitBranch 1 true zp off)

/-- BBS2 (R251). -/
def execBbs2 (zp off : Byte) (s : State) : Host.Outcome State Fault Refusal :=
  runEntry (.bbs2 zp off) s (s.bitBranch 2 true zp off)

/-- BBS3 (R251). -/
def execBbs3 (zp off : Byte) (s : State) : Host.Outcome State Fault Refusal :=
  runEntry (.bbs3 zp off) s (s.bitBranch 3 true zp off)

/-- BBS4 (R251). -/
def execBbs4 (zp off : Byte) (s : State) : Host.Outcome State Fault Refusal :=
  runEntry (.bbs4 zp off) s (s.bitBranch 4 true zp off)

/-- BBS5 (R251). -/
def execBbs5 (zp off : Byte) (s : State) : Host.Outcome State Fault Refusal :=
  runEntry (.bbs5 zp off) s (s.bitBranch 5 true zp off)

/-- BBS6 (R251). -/
def execBbs6 (zp off : Byte) (s : State) : Host.Outcome State Fault Refusal :=
  runEntry (.bbs6 zp off) s (s.bitBranch 6 true zp off)

/-- BBS7 (R251). -/
def execBbs7 (zp off : Byte) (s : State) : Host.Outcome State Fault Refusal :=
  runEntry (.bbs7 zp off) s (s.bitBranch 7 true zp off)

/-- JMP (R252). -/
def execJmp (o : JumpOperand) (s : State) : Host.Outcome State Fault Refusal :=
  runEntry (.jmp o) s ((s.jumpAccess o).setPC (s.jumpTarget o))

end Sys2Proof.Machine
end

