-- ==== Sys2Proof/Machine/Implied.lean ====
section
/-! DEFINITION. Implied-operand instructions, the unsupported placeholders and illegal bytes (spec 47_implied.md R300 to R321, 60_exceptions.md R404, R406). -/

namespace Sys2Proof.Machine

/-- TAX: `X <- A; SetNZ(X)` (R301). -/
def execTax (s : State) : Host.Outcome State Fault Refusal :=
  runEntry .tax s ((s.implied.setX s.A).setNZ s.A)

/-- TAY: `Y <- A; SetNZ(Y)` (R302). -/
def execTay (s : State) : Host.Outcome State Fault Refusal :=
  runEntry .tay s ((s.implied.setY s.A).setNZ s.A)

/-- TXA: `A <- X; SetNZ(A)` (R303). -/
def execTxa (s : State) : Host.Outcome State Fault Refusal :=
  runEntry .txa s ((s.implied.setA s.X).setNZ s.X)

/-- TYA: `A <- Y; SetNZ(A)` (R304). -/
def execTya (s : State) : Host.Outcome State Fault Refusal :=
  runEntry .tya s ((s.implied.setA s.Y).setNZ s.Y)

/-- TSX: `X <- S; SetNZ(X)` (R305). -/
def execTsx (s : State) : Host.Outcome State Fault Refusal :=
  runEntry .tsx s ((s.implied.setX s.S).setNZ s.S)

/-- TXS: `S <- X`, no flags (R306). -/
def execTxs (s : State) : Host.Outcome State Fault Refusal :=
  runEntry .txs s (s.implied.setS s.X)

/-- INX (R307). -/
def execInx (s : State) : Host.Outcome State Fault Refusal :=
  runEntry .inx s ((s.implied.setX (s.X + 1)).setNZ (s.X + 1))

/-- INY (R308). -/
def execIny (s : State) : Host.Outcome State Fault Refusal :=
  runEntry .iny s ((s.implied.setY (s.Y + 1)).setNZ (s.Y + 1))

/-- DEX (R309). -/
def execDex (s : State) : Host.Outcome State Fault Refusal :=
  runEntry .dex s ((s.implied.setX (s.X - 1)).setNZ (s.X - 1))

/-- DEY (R310). -/
def execDey (s : State) : Host.Outcome State Fault Refusal :=
  runEntry .dey s ((s.implied.setY (s.Y - 1)).setNZ (s.Y - 1))

/-- CLC (R311). -/
def execClc (s : State) : Host.Outcome State Fault Refusal :=
  runEntry .clc s (s.implied.setC false)

/-- SEC (R312). -/
def execSec (s : State) : Host.Outcome State Fault Refusal :=
  runEntry .sec s (s.implied.setC true)

/-- CLI (R313). -/
def execCli (s : State) : Host.Outcome State Fault Refusal :=
  runEntry .cli s (s.implied.setI false)

/-- SEI (R314). -/
def execSei (s : State) : Host.Outcome State Fault Refusal :=
  runEntry .sei s (s.implied.setI true)

/-- CLD (R315). -/
def execCld (s : State) : Host.Outcome State Fault Refusal :=
  runEntry .cld s (s.implied.setD false)

/-- SED (R316). -/
def execSed (s : State) : Host.Outcome State Fault Refusal :=
  runEntry .sed s (s.implied.setD true)

/-- CLV (R317). -/
def execClv (s : State) : Host.Outcome State Fault Refusal :=
  runEntry .clv s (s.implied.setV false)

/-- NOP (R318). -/
def execNop (s : State) : Host.Outcome State Fault Refusal :=
  runEntry .nop s s.implied

/-- An instruction that CMOS65C02 acknowledges and leaves unimplemented, an illegal byte on NMOS6502: the opcode fetch, then the
fault (R406, R404, R365). -/
def unsupported (op : Byte) (s : State) : Host.Outcome State Fault Refusal :=
  if isIllegalByte s.cfg op then .fault (.illegalOpcode s.PC op s.fetch.trace)
  else .fault (.unsupportedInstruction s.PC op s.fetch.trace)

/-- WAI (R319). -/
def execWai (s : State) : Host.Outcome State Fault Refusal :=
  unsupported 0xCB s

/-- STP (R320). -/
def execStp (s : State) : Host.Outcome State Fault Refusal :=
  unsupported 0xDB s

/-- An illegal byte: the opcode fetch, then the fault, and nothing else (R404, R365). -/
def execIllegal (opcode : Byte) (s : State) : Host.Outcome State Fault Refusal :=
  .fault (.illegalOpcode s.PC opcode s.fetch.trace)

end Sys2Proof.Machine
end

