-- ==== Sys2Proof/Machine/ReadClass.lean ====
section
/-! DEFINITION. The read class: loads, logic, compares and BIT (spec 41_read_class.md R150 to R162). -/

namespace Sys2Proof.Machine

/-- LDA: `A <- M; SetNZ(A)` (R152). -/
def execLda (o : DataOperand) (s : State) : Host.Outcome State Fault Refusal :=
  runEntry (.lda o) s (((s.load o).setA (s.operand o)).setNZ (s.operand o))

/-- LDX: `X <- M; SetNZ(X)` (R153). -/
def execLdx (o : DataOperand) (s : State) : Host.Outcome State Fault Refusal :=
  runEntry (.ldx o) s (((s.load o).setX (s.operand o)).setNZ (s.operand o))

/-- LDY: `Y <- M; SetNZ(Y)` (R154). -/
def execLdy (o : DataOperand) (s : State) : Host.Outcome State Fault Refusal :=
  runEntry (.ldy o) s (((s.load o).setY (s.operand o)).setNZ (s.operand o))

/-- AND: `A <- A & M; SetNZ(A)` (R155). -/
def execAnd (o : DataOperand) (s : State) : Host.Outcome State Fault Refusal :=
  let r := s.A &&& s.operand o
  runEntry (.and o) s (((s.load o).setA r).setNZ r)

/-- ORA: `A <- A | M; SetNZ(A)` (R156). -/
def execOra (o : DataOperand) (s : State) : Host.Outcome State Fault Refusal :=
  let r := s.A ||| s.operand o
  runEntry (.ora o) s (((s.load o).setA r).setNZ r)

/-- EOR: `A <- A ^ M; SetNZ(A)` (R157). -/
def execEor (o : DataOperand) (s : State) : Host.Outcome State Fault Refusal :=
  let r := s.A ^^^ s.operand o
  runEntry (.eor o) s (((s.load o).setA r).setNZ r)

/-- CMP: `Compare(A, M)` (R158). -/
def execCmp (o : DataOperand) (s : State) : Host.Outcome State Fault Refusal :=
  runEntry (.cmp o) s ((s.load o).compare s.A (s.operand o))

/-- CPX: `Compare(X, M)` (R159). -/
def execCpx (o : DataOperand) (s : State) : Host.Outcome State Fault Refusal :=
  runEntry (.cpx o) s ((s.load o).compare s.X (s.operand o))

/-- CPY: `Compare(Y, M)` (R160). -/
def execCpy (o : DataOperand) (s : State) : Host.Outcome State Fault Refusal :=
  runEntry (.cpy o) s ((s.load o).compare s.Y (s.operand o))

/-- The flags of BIT: Z from A AND M always, N and V from the operand in every mode but IMM (R161). -/
def State.bitFlags (t : State) (o : DataOperand) (m : Byte) : State :=
  match o with
  | .imm _ => t.setZAnd m
  | .zp _ | .zpx _ | .zpy _ | .abs _ | .abx _ | .aby _ | .izx _ | .izy _ | .izp _ =>
    ((t.setZAnd m).setN (bitOf m 7)).setV (bitOf m 6)

/-- BIT (R161). -/
def execBit (o : DataOperand) (s : State) : Host.Outcome State Fault Refusal :=
  runEntry (.bit o) s ((s.load o).bitFlags o (s.operand o))

end Sys2Proof.Machine
end

