-- ==== Sys2Proof/Machine/Rmw.lean ====
section
/-! DEFINITION. The read-modify-write class (spec 44_rmw.md R210 to R222). -/

namespace Sys2Proof.Machine

/-- ASL: C from old bit 7, SetNZ of the result (R212). -/
def execAsl (o : RmwOperand) (s : State) : Host.Outcome State Fault Refusal :=
  let v := s.rmwOld o
  runEntry (.asl o) s (((s.modify o (aslByte v)).setC (bitOf v 7)).setNZ (aslByte v))

/-- LSR: C from old bit 0, SetNZ of the result (R213). -/
def execLsr (o : RmwOperand) (s : State) : Host.Outcome State Fault Refusal :=
  let v := s.rmwOld o
  runEntry (.lsr o) s (((s.modify o (lsrByte v)).setC (bitOf v 0)).setNZ (lsrByte v))

/-- ROL: C from old bit 7, SetNZ of the result (R214). -/
def execRol (o : RmwOperand) (s : State) : Host.Outcome State Fault Refusal :=
  let v := s.rmwOld o
  runEntry (.rol o) s (((s.modify o (rolByte s.C v)).setC (bitOf v 7)).setNZ (rolByte s.C v))

/-- ROR: C from old bit 0, SetNZ of the result (R215). -/
def execRor (o : RmwOperand) (s : State) : Host.Outcome State Fault Refusal :=
  let v := s.rmwOld o
  runEntry (.ror o) s (((s.modify o (rorByte s.C v)).setC (bitOf v 0)).setNZ (rorByte s.C v))

/-- INC (R216). -/
def execInc (o : RmwOperand) (s : State) : Host.Outcome State Fault Refusal :=
  let r := s.rmwOld o + 1
  runEntry (.inc o) s ((s.modify o r).setNZ r)

/-- DEC (R217). -/
def execDec (o : RmwOperand) (s : State) : Host.Outcome State Fault Refusal :=
  let r := s.rmwOld o - 1
  runEntry (.dec o) s ((s.modify o r).setNZ r)

/-- TSB: Z from A AND the old value (R218). -/
def execTsb (o : RmwOperand) (s : State) : Host.Outcome State Fault Refusal :=
  let v := s.rmwOld o
  runEntry (.tsb o) s ((s.modify o (v ||| s.A)).setZAnd v)

/-- TRB: Z from A AND the old value (R219). -/
def execTrb (o : RmwOperand) (s : State) : Host.Outcome State Fault Refusal :=
  let v := s.rmwOld o
  runEntry (.trb o) s ((s.modify o (v &&& (s.A ^^^ 0xFF))).setZAnd v)

/-- RMBn: bit n of the zero page byte reset, no flags (R220). -/
def State.resetBit (s : State) (n : Nat) (zp : Byte) : State :=
  s.modify (.zp zp) (s.rmwOld (.zp zp) &&& (bitMask n ^^^ 0xFF))

/-- SMBn: bit n of the zero page byte set, no flags (R221). -/
def State.setBit (s : State) (n : Nat) (zp : Byte) : State :=
  s.modify (.zp zp) (s.rmwOld (.zp zp) ||| bitMask n)

/-- RMB0 (R220). -/
def execRmb0 (zp : Byte) (s : State) : Host.Outcome State Fault Refusal :=
  runEntry (.rmb0 zp) s (s.resetBit 0 zp)

/-- RMB1 (R220). -/
def execRmb1 (zp : Byte) (s : State) : Host.Outcome State Fault Refusal :=
  runEntry (.rmb1 zp) s (s.resetBit 1 zp)

/-- RMB2 (R220). -/
def execRmb2 (zp : Byte) (s : State) : Host.Outcome State Fault Refusal :=
  runEntry (.rmb2 zp) s (s.resetBit 2 zp)

/-- RMB3 (R220). -/
def execRmb3 (zp : Byte) (s : State) : Host.Outcome State Fault Refusal :=
  runEntry (.rmb3 zp) s (s.resetBit 3 zp)

/-- RMB4 (R220). -/
def execRmb4 (zp : Byte) (s : State) : Host.Outcome State Fault Refusal :=
  runEntry (.rmb4 zp) s (s.resetBit 4 zp)

/-- RMB5 (R220). -/
def execRmb5 (zp : Byte) (s : State) : Host.Outcome State Fault Refusal :=
  runEntry (.rmb5 zp) s (s.resetBit 5 zp)

/-- RMB6 (R220). -/
def execRmb6 (zp : Byte) (s : State) : Host.Outcome State Fault Refusal :=
  runEntry (.rmb6 zp) s (s.resetBit 6 zp)

/-- RMB7 (R220). -/
def execRmb7 (zp : Byte) (s : State) : Host.Outcome State Fault Refusal :=
  runEntry (.rmb7 zp) s (s.resetBit 7 zp)

/-- SMB0 (R221). -/
def execSmb0 (zp : Byte) (s : State) : Host.Outcome State Fault Refusal :=
  runEntry (.smb0 zp) s (s.setBit 0 zp)

/-- SMB1 (R221). -/
def execSmb1 (zp : Byte) (s : State) : Host.Outcome State Fault Refusal :=
  runEntry (.smb1 zp) s (s.setBit 1 zp)

/-- SMB2 (R221). -/
def execSmb2 (zp : Byte) (s : State) : Host.Outcome State Fault Refusal :=
  runEntry (.smb2 zp) s (s.setBit 2 zp)

/-- SMB3 (R221). -/
def execSmb3 (zp : Byte) (s : State) : Host.Outcome State Fault Refusal :=
  runEntry (.smb3 zp) s (s.setBit 3 zp)

/-- SMB4 (R221). -/
def execSmb4 (zp : Byte) (s : State) : Host.Outcome State Fault Refusal :=
  runEntry (.smb4 zp) s (s.setBit 4 zp)

/-- SMB5 (R221). -/
def execSmb5 (zp : Byte) (s : State) : Host.Outcome State Fault Refusal :=
  runEntry (.smb5 zp) s (s.setBit 5 zp)

/-- SMB6 (R221). -/
def execSmb6 (zp : Byte) (s : State) : Host.Outcome State Fault Refusal :=
  runEntry (.smb6 zp) s (s.setBit 6 zp)

/-- SMB7 (R221). -/
def execSmb7 (zp : Byte) (s : State) : Host.Outcome State Fault Refusal :=
  runEntry (.smb7 zp) s (s.setBit 7 zp)

end Sys2Proof.Machine
end

