-- ==== Sys2Proof/Machine/Stack.lean ====
section
/-! DEFINITION. Stack and interrupt-shaped instructions (spec 46_stack_interrupt_shaped.md R270 to R283). -/

namespace Sys2Proof.Machine

/-- The second dummy read of the pulls, RTS and RTI, before S changes (R275, R343 stack_top). -/
def State.stackTop (s : State) : State := s.dummy .stackTop (stackAddr s.S)

/-- PHA (R271). -/
def execPha (s : State) : Host.Outcome State Fault Refusal :=
  runEntry .pha s (s.implied.push s.A)

/-- PHP (R272). -/
def execPhp (s : State) : Host.Outcome State Fault Refusal :=
  runEntry .php s (s.implied.push (s.pack true))

/-- PHX (R273). -/
def execPhx (s : State) : Host.Outcome State Fault Refusal :=
  runEntry .phx s (s.implied.push s.X)

/-- PHY (R274). -/
def execPhy (s : State) : Host.Outcome State Fault Refusal :=
  runEntry .phy s (s.implied.push s.Y)

/-- PLA: N and Z from the pulled byte (R275). -/
def execPla (s : State) : Host.Outcome State Fault Refusal :=
  runEntry .pla s ((s.implied.stackTop.pull.setA s.pulled).setNZ s.pulled)

/-- PLX: N and Z from the pulled byte (R277). -/
def execPlx (s : State) : Host.Outcome State Fault Refusal :=
  runEntry .plx s ((s.implied.stackTop.pull.setX s.pulled).setNZ s.pulled)

/-- PLY: N and Z from the pulled byte (R278). -/
def execPly (s : State) : Host.Outcome State Fault Refusal :=
  runEntry .ply s ((s.implied.stackTop.pull.setY s.pulled).setNZ s.pulled)

/-- PLP: exactly six flags (R276). -/
def execPlp (s : State) : Host.Outcome State Fault Refusal :=
  runEntry .plp s (s.implied.stackTop.pull.unpack s.pulled)

/-- JSR: low byte, stack read, push of p + 2, and only then the high byte, which is read from memory as it is after the pushes
(R279, R79). -/
def State.callSubroutine (s : State) (lo : Byte) : State :=
  let t := s.fetch.fetch
  let t := t.stackTop.pushWord t.PC
  (t.readBus t.PC).setPC (word (t.peek t.PC) lo)

/-- JSR (R279). -/
def execJsr (target : Word) (s : State) : Host.Outcome State Fault Refusal :=
  runEntry (.jsr target) s (s.callSubroutine (lo8 target))

/-- RTS: pull low, pull high, one dummy read at the pulled address, which R280 holds in PC for that read, plus 1 (R280). -/
def State.returnSubroutine (s : State) : State :=
  let t := s.implied.stackTop
  let u := t.pull
  let ret := word u.pulled t.pulled
  (u.pull.dummy .rtsInc ret).setPC (ret + 1)

/-- RTS (R280). -/
def execRts (s : State) : Host.Outcome State Fault Refusal :=
  runEntry .rts s s.returnSubroutine

/-- BRK: the signature byte is fetched and discarded, then the exception entry with Break set and counted vector reads (R281, R414). -/
def execBrk (s : State) : Host.Outcome State Fault Refusal :=
  runEntry .brk s (s.fetch.fetch.interruptEntry vecIRQ true true)

/-- RTI (R282, R419). -/
def execRti (s : State) : Host.Outcome State Fault Refusal :=
  runEntry .rti s s.implied.stackTop.interruptReturn

end Sys2Proof.Machine
end

