-- ==== Sys2Proof/Machine/StoreClass.lean ====
section
/-! DEFINITION. The store class (spec 43_store_class.md R200 to R204). -/

namespace Sys2Proof.Machine

/-- STA (R201). -/
def execSta (o : DataOperand) (s : State) : Host.Outcome State Fault Refusal :=
  runEntry (.sta o) s (s.store o s.A)

/-- STX (R202). -/
def execStx (o : DataOperand) (s : State) : Host.Outcome State Fault Refusal :=
  runEntry (.stx o) s (s.store o s.X)

/-- STY (R203). -/
def execSty (o : DataOperand) (s : State) : Host.Outcome State Fault Refusal :=
  runEntry (.sty o) s (s.store o s.Y)

/-- STZ (R204). -/
def execStz (o : DataOperand) (s : State) : Host.Outcome State Fault Refusal :=
  runEntry (.stz o) s (s.store o 0x00)

end Sys2Proof.Machine
end

