-- ==== Sys2Proof/Machine/HostCalls.lean ====
section
/-! DEFINITION. What the host calls between instructions: Reset(), NMI(), IRQ(), the setters and getters (spec 60_exceptions.md R410
to R416, R430; 10_state.md R26, R33). -/

namespace Sys2Proof.Machine

/-- The instruction counter after an event for which R431 states nothing: a free value (notes/assumptions/6.md). -/
def State.freeInstrs (s : State) : State := { s with instrs := Config.freeCounter s.free, free := s.free + 1 }

/-- The cycle counter after Reset: a free value (R431; notes/assumptions/6.md). -/
def State.freeCycles (s : State) : State := { s with cycles := Config.freeCounter s.free, free := s.free + 1 }

/-- `Reset()`: A, X, Y and the six flags 0, S = 0xFD, PC from the reset vector by Peek; memory unchanged and no counted access (R411,
R367). -/
def State.hostReset (s : State) : State :=
  { s with A := 0x00, X := 0x00, Y := 0x00, S := 0xFD
           C := false, Z := false, I := false, D := false, V := false, N := false
           PC := s.vectorWord vecReset }.freeCycles.freeInstrs

/-- `NMI()`: taken whatever I is (R412). -/
def State.nmi (s : State) : State := (s.interruptEntry vecNMI false s.cfg.intVectorFetchCounted).freeInstrs

/-- `IRQ()`: taken when I is clear; else no access and no change (R413, R416). -/
def State.irq (s : State) : State :=
  if s.I then s else (s.interruptEntry vecIRQ false s.cfg.intVectorFetchCounted).freeInstrs

/-- The host's packed-status getter, `Pack(0)` (R33). -/
def State.getP (s : State) : Byte := s.pack false

/-- The host's calls that execute no instruction; `step` itself is `stepInstr`'s. -/
def State.hostSet (s : State) : HostCall → State
  | .step    => s
  | .reset   => s.hostReset
  | .nmi     => s.nmi
  | .irq     => s.irq
  | .setA v  => s.setA v
  | .setX v  => s.setX v
  | .setY v  => s.setY v
  | .setS v  => s.setS v
  | .setPC v => s.setPC v
  | .setC b  => s.setC b
  | .setZ b  => s.setZ b
  | .setI b  => s.setI b
  | .setD b  => s.setD b
  | .setV b  => s.setV b
  | .setN b  => s.setN b
  | .setP v  => s.unpack v
  | .poke a v => s.poke a v

end Sys2Proof.Machine
end

