-- ==== Sys2Proof/Machine/Engine.lean ====
section
/-! DEFINITION. Step() and Run() (spec 60_exceptions.md R430 to R432): reading the instruction at PC, executing it, and the run
loop. -/

namespace Sys2Proof.Machine

/-- The instruction at PC: the opcode byte decides how many of the two bytes after it belong to it; addresses wrap modulo 65536 (R25,
R90, R94). The counted fetches are the meaning's. -/
def fetchInstr (s : State) : Instr :=
  decodeBytes s.cfg (s.peek s.PC) (s.peek (s.PC + 1)) (s.peek (s.PC + 2))

/-- One more completed instruction (R431). -/
def State.retire (s : State) : State := { s with instrs := s.instrs + 1 }

/-- `Step()`: one instruction inside one transaction; a fault ends it (R62, R400, R430). -/
def stepInstr (s : State) : Host.Outcome State Fault Refusal :=
  match exec (fetchInstr s) s.beginTransaction with
  | .next t    => .next t.retire
  | .fault f   => .fault f
  | .refused r => .refused r

/-- The counted accesses that a faulting step has made, oldest first (R365). -/
def Fault.accesses : Fault → List BusAccess
  | .illegalOpcode _ _ l | .unsupportedInstruction _ _ l | .unhandledAddressingMode _ _ l => l

/-- What `EndTransaction()` returns after a step that faults (R62, R368). -/
def Fault.cycles (f : Fault) : Nat := f.accesses.length

/-- One call of the host, a step of its own (R18, R430). -/
def hostCall (c : HostCall) (s : State) : Host.Outcome State Fault Refusal :=
  match c with
  | .step => stepInstr s
  | .reset | .nmi | .irq | .setA _ | .setX _ | .setY _ | .setS _ | .setPC _ | .setC _ | .setZ _ | .setI _ | .setD _
  | .setV _ | .setN _ | .setP _ | .poke _ _ => .next (s.beginTransaction.hostSet c)

/-- How `Run()` ends, or where it stands when the fuel is used up (R400, R432). -/
inductive RunResult where
  | stopped    (s : State)
  | faulted    (f : Fault)
  | refused    (r : Refusal)
  | unfinished (s : State)
  deriving DecidableEq, Repr

/-- Stop-on-break: P7 is set and the next opcode, by Peek, is BRK's (R432 (c)). -/
def stopsOnBreak (s : State) : Bool := s.cfg.stopOnBreak && s.peek s.PC == 0x00

/-- `Run()` for at most `n` instructions: before each fetch the caller's predicate and stop-on-break are asked (R432). -/
def run (ask : State → Bool) : Nat → State → RunResult
  | 0, s => .unfinished s
  | n + 1, s =>
    if ask s || stopsOnBreak s then .stopped s
    else match stepInstr s with
      | .next t    => run ask n t
      | .fault f   => .faulted f
      | .refused r => .refused r

end Sys2Proof.Machine
end

