-- ==== Sys2Proof/Machine/Step.lean ====
section
/-! DEFINITION. One step of the machine, and the placing of one instruction where the next step fetches it. -/

namespace Sys2Proof.Machine

/-- One step: the host's next pending call, or, with none pending, Step() (spec 00_scope.md R15, R18; notes/assumptions/4.md). -/
def step (s : State) : Host.Outcome State Fault Refusal :=
  match s.host with
  | [] => stepInstr s
  | c :: rest => hostCall c { s with host := rest }

/-- The state with the instruction of `w` (bits above `nbits` 0) at PC, as three bytes, and no host call before it
(notes/assumptions/3.md). -/
def State.withFetchWord (s : State) (nbits w : Nat) : State :=
  let v := w % 2 ^ nbits
  let t := s.poke s.PC (BitVec.ofNat 8 v)
  let t := t.poke (s.PC + 1) (BitVec.ofNat 8 (v / 2 ^ 8))
  let t := t.poke (s.PC + 2) (BitVec.ofNat 8 (v / 2 ^ 16))
  { t with host := [] }

end Sys2Proof.Machine
end

