-- ==== Sys2Proof/Machine/BusPattern.lean ====
section
/-! DEFINITION. The ordered bus pattern and the cycle count of every instruction, as the tables of spec 48_bus_access_patterns.md list
them (R344 to R364, R368, with the dummy addresses of R343). Nothing the machine does calls this file: it is the other side of
the claims about the trace and the counters. -/

namespace Sys2Proof.Machine

/-- `R a` in state s (R340). -/
def rd (s : State) (a : Word) : BusAccess := ⟨a, s.peek a, .read⟩

/-- `W a = v` (R340). -/
def wr (a : Word) (v : Byte) : BusAccess := ⟨a, v, .write⟩

/-- `R p`, `R p+1`, ... : the first n bytes of the instruction at PC (R341). -/
def rdInstr (s : State) (n : Nat) : List BusAccess := (List.range n).map fun k => rd s (s.PC + BitVec.ofNat 16 k)

/-- `R unc (dummy, index_fixup)`: only when crossed for a READ, always for WRITE and RMW (R349, R351). -/
def fixupPattern (s : State) (o : DataOperand) (k : AccessClass) : List BusAccess :=
  if k = .read ∧ s.crossed o = false then [] else [rd s (s.unc o)]

/-- The accesses before the data access (R345 to R352). -/
def modePattern (s : State) (o : DataOperand) (k : AccessClass) : List BusAccess :=
  match o with
  | .imm _ => rdInstr s 1
  | .zp _  => rdInstr s 2
  | .zpx b | .zpy b => rdInstr s 2 ++ [rd s (zeroPage b)]
  | .abs _ => rdInstr s 3
  | .abx _ | .aby _ => rdInstr s 3 ++ fixupPattern s o k
  | .izx b => rdInstr s 2 ++ [rd s (zeroPage b), rd s (zeroPage (b + s.X)), rd s (zeroPage (b + s.X + 1))]
  | .izy b => rdInstr s 2 ++ [rd s (zeroPage b), rd s (zeroPage (b + 1))] ++ fixupPattern s o k
  | .izp b => rdInstr s 2 ++ [rd s (zeroPage b), rd s (zeroPage (b + 1))]

/-- Class READ (R345 to R352). -/
def readPattern (s : State) (o : DataOperand) : List BusAccess := modePattern s o .read ++ [rd s (s.ea o)]

/-- Class READ of ADC and SBC: one read of EA more on CMOS65C02 with D = 1 (R364). -/
def decimalPattern (s : State) (o : DataOperand) : List BusAccess :=
  readPattern s o ++ (if s.cfg.variant = .cmos65C02 ∧ s.D = true then [rd s (s.ea o)] else [])

/-- Class WRITE (R346 to R352). -/
def writePattern (s : State) (o : DataOperand) (v : Byte) : List BusAccess := modePattern s o .write ++ [wr (s.ea o) v]

/-- The middle access of an RMW: the write-back, or with P3 = read on CMOS65C02 a read (R369). -/
def middlePattern (s : State) (o : DataOperand) : BusAccess :=
  if s.cfg.variant = .cmos65C02 ∧ s.cfg.cmosRmwSecondAccess = .read then rd s (s.ea o) else wr (s.ea o) (s.peek (s.ea o))

/-- IMPLIED (R344). -/
def impliedPattern (s : State) : List BusAccess := rdInstr s 2

/-- Class RMW, or IMPLIED for the accumulator (R344, R346 to R349). -/
def rmwPattern (s : State) (o : RmwOperand) (new : Byte) : List BusAccess :=
  match rmwData o with
  | none   => impliedPattern s
  | some d => modePattern s d .rmw ++ [rd s (s.ea d), middlePattern s d, wr (s.ea d) new]

/-- The dummy reads of a taken branch; `next` is the address after the instruction (R353, R354, R343). -/
def takenPattern (s : State) (next : Word) (off : Byte) : List BusAccess :=
  let target := next + sext16 off
  [rd s next] ++
    (if hi8 target = hi8 next then []
     else [rd s (match s.cfg.variant with | .nmos6502 => word (hi8 next) (lo8 target) | .cmos65C02 => next)])

/-- REL (R353). -/
def branchPattern (s : State) (taken : Bool) (off : Byte) : List BusAccess :=
  rdInstr s 2 ++ (if taken then takenPattern s (s.PC + 2) off else [])

/-- ZPR (R354). -/
def bitBranchPattern (s : State) (n : Nat) (want : Bool) (zp off : Byte) : List BusAccess :=
  rdInstr s 2 ++ [rd s (zeroPage zp), rd s (zeroPage zp), rd s (s.PC + 2)] ++
    (if bitOf (s.peek (zeroPage zp)) n = want then takenPattern s (s.PC + 3) off else [])

/-- JMP (R355 to R357). -/
def jumpPattern (s : State) (o : JumpOperand) : List BusAccess :=
  match o with
  | .abs _ => rdInstr s 3
  | .ind w => rdInstr s 3 ++ [rd s w, rd s (jumpPointerHigh s.cfg w)]
  | .iax w => rdInstr s 3 ++ [rd s (s.PC + 2), rd s (w + word 0 s.X), rd s (w + word 0 s.X + 1)]

/-- PUSH (R362). -/
def pushPattern (s : State) (v : Byte) : List BusAccess := rdInstr s 2 ++ [wr (stackAddr s.S) v]

/-- PULL (R363), and the start of RTS and RTI (R359, R360): n pulls. -/
def pullPattern (s : State) (n : Nat) : List BusAccess :=
  rdInstr s 2 ++ [rd s (stackAddr s.S)] ++ (List.range n).map fun k => rd s (stackAddr (s.S + BitVec.ofNat 8 (k + 1)))

/-- JSR (R358): the last read sees the pushes. -/
def jsrPattern (s : State) : List BusAccess :=
  let ret := s.PC + 2
  rdInstr s 2 ++ [rd s (stackAddr s.S), wr (stackAddr s.S) (hi8 ret), wr (stackAddr (s.S - 1)) (lo8 ret),
    rd ((s.poke (stackAddr s.S) (hi8 ret)).poke (stackAddr (s.S - 1)) (lo8 ret)) ret]

/-- The address RTS pulls (R359). -/
def pulledWord (s : State) : Word := word (s.peek (stackAddr (s.S + 2))) (s.peek (stackAddr (s.S + 1)))

/-- BRK (R361). -/
def brkPattern (s : State) : List BusAccess :=
  let ret := s.PC + 2
  rdInstr s 2 ++ [wr (stackAddr s.S) (hi8 ret), wr (stackAddr (s.S - 1)) (lo8 ret), wr (stackAddr (s.S - 2)) (s.pack true),
    rd s 0xFFFE, rd s 0xFFFF]

/-- The counted accesses of an instruction, in order, with P4 and P5 at their defaults (R342, R365). -/
def busPattern (i : Instr) (s : State) : List BusAccess :=
  match i with
  | .lda o | .ldx o | .ldy o | .and o | .ora o | .eor o | .cmp o | .cpx o | .cpy o | .bit o => readPattern s o
  | .adc o | .sbc o => decimalPattern s o
  | .sta o => writePattern s o s.A
  | .stx o => writePattern s o s.X
  | .sty o => writePattern s o s.Y
  | .stz o => writePattern s o 0x00
  | .asl o => rmwPattern s o (aslByte (s.rmwOld o))
  | .lsr o => rmwPattern s o (lsrByte (s.rmwOld o))
  | .rol o => rmwPattern s o (rolByte s.C (s.rmwOld o))
  | .ror o => rmwPattern s o (rorByte s.C (s.rmwOld o))
  | .inc o => rmwPattern s o (s.rmwOld o + 1)
  | .dec o => rmwPattern s o (s.rmwOld o - 1)
  | .tsb o => rmwPattern s o (s.rmwOld o ||| s.A)
  | .trb o => rmwPattern s o (s.rmwOld o &&& (s.A ^^^ 0xFF))
  | .rmb0 zp => rmwPattern s (.zp zp) (s.rmwOld (.zp zp) &&& (bitMask 0 ^^^ 0xFF))
  | .rmb1 zp => rmwPattern s (.zp zp) (s.rmwOld (.zp zp) &&& (bitMask 1 ^^^ 0xFF))
  | .rmb2 zp => rmwPattern s (.zp zp) (s.rmwOld (.zp zp) &&& (bitMask 2 ^^^ 0xFF))
  | .rmb3 zp => rmwPattern s (.zp zp) (s.rmwOld (.zp zp) &&& (bitMask 3 ^^^ 0xFF))
  | .rmb4 zp => rmwPattern s (.zp zp) (s.rmwOld (.zp zp) &&& (bitMask 4 ^^^ 0xFF))
  | .rmb5 zp => rmwPattern s (.zp zp) (s.rmwOld (.zp zp) &&& (bitMask 5 ^^^ 0xFF))
  | .rmb6 zp => rmwPattern s (.zp zp) (s.rmwOld (.zp zp) &&& (bitMask 6 ^^^ 0xFF))
  | .rmb7 zp => rmwPattern s (.zp zp) (s.rmwOld (.zp zp) &&& (bitMask 7 ^^^ 0xFF))
  | .smb0 zp => rmwPattern s (.zp zp) (s.rmwOld (.zp zp) ||| bitMask 0)
  | .smb1 zp => rmwPattern s (.zp zp) (s.rmwOld (.zp zp) ||| bitMask 1)
  | .smb2 zp => rmwPattern s (.zp zp) (s.rmwOld (.zp zp) ||| bitMask 2)
  | .smb3 zp => rmwPattern s (.zp zp) (s.rmwOld (.zp zp) ||| bitMask 3)
  | .smb4 zp => rmwPattern s (.zp zp) (s.rmwOld (.zp zp) ||| bitMask 4)
  | .smb5 zp => rmwPattern s (.zp zp) (s.rmwOld (.zp zp) ||| bitMask 5)
  | .smb6 zp => rmwPattern s (.zp zp) (s.rmwOld (.zp zp) ||| bitMask 6)
  | .smb7 zp => rmwPattern s (.zp zp) (s.rmwOld (.zp zp) ||| bitMask 7)
  | .bpl off => branchPattern s (!s.N) off
  | .bmi off => branchPattern s s.N off
  | .bvc off => branchPattern s (!s.V) off
  | .bvs off => branchPattern s s.V off
  | .bcc off => branchPattern s (!s.C) off
  | .bcs off => branchPattern s s.C off
  | .bne off => branchPattern s (!s.Z) off
  | .beq off => branchPattern s s.Z off
  | .bra off => branchPattern s true off
  | .bbr0 zp off => bitBranchPattern s 0 false zp off
  | .bbr1 zp off => bitBranchPattern s 1 false zp off
  | .bbr2 zp off => bitBranchPattern s 2 false zp off
  | .bbr3 zp off => bitBranchPattern s 3 false zp off
  | .bbr4 zp off => bitBranchPattern s 4 false zp off
  | .bbr5 zp off => bitBranchPattern s 5 false zp off
  | .bbr6 zp off => bitBranchPattern s 6 false zp off
  | .bbr7 zp off => bitBranchPattern s 7 false zp off
  | .bbs0 zp off => bitBranchPattern s 0 true zp off
  | .bbs1 zp off => bitBranchPattern s 1 true zp off
  | .bbs2 zp off => bitBranchPattern s 2 true zp off
  | .bbs3 zp off => bitBranchPattern s 3 true zp off
  | .bbs4 zp off => bitBranchPattern s 4 true zp off
  | .bbs5 zp off => bitBranchPattern s 5 true zp off
  | .bbs6 zp off => bitBranchPattern s 6 true zp off
  | .bbs7 zp off => bitBranchPattern s 7 true zp off
  | .jmp o => jumpPattern s o
  | .pha => pushPattern s s.A
  | .php => pushPattern s (s.pack true)
  | .phx => pushPattern s s.X
  | .phy => pushPattern s s.Y
  | .pla | .plp | .plx | .ply => pullPattern s 1
  | .jsr _ => jsrPattern s
  | .rts => pullPattern s 2 ++ [rd s (pulledWord s)]
  | .brk => brkPattern s
  | .rti => pullPattern s 3
  | .tax | .tay | .txa | .tya | .tsx | .txs | .inx | .iny | .dex | .dey | .clc | .sec | .cli | .sei | .cld | .sed | .clv
  | .nop => impliedPattern s
  | .wai | .stp | .illegal _ => rdInstr s 1

/-! ## Cycle counts (R368) -/

/-- `+x`: one more when a page is crossed. -/
def plusX (s : State) (o : DataOperand) : Nat := if s.crossed o then 1 else 0

/-- `+d`: one more on CMOS65C02 when D = 1. -/
def plusD (s : State) : Nat := if s.cfg.variant = .cmos65C02 ∧ s.D = true then 1 else 0

/-- The READ column of R368. -/
def readCycles (s : State) (o : DataOperand) : Nat :=
  match o with
  | .imm _ => 2
  | .zp _  => 3
  | .zpx _ | .zpy _ | .abs _ => 4
  | .abx _ | .aby _ => 4 + plusX s o
  | .izx _ => 6
  | .izy _ => 5 + plusX s o
  | .izp _ => 5

/-- The WRITE column of R368; it has no IMM row. -/
def writeCycles (o : DataOperand) : Nat :=
  match o with
  | .imm _ => 0
  | .zp _  => 3
  | .zpx _ | .zpy _ | .abs _ => 4
  | .abx _ | .aby _ | .izp _ => 5
  | .izx _ | .izy _ => 6

/-- The RMW column of R368, and IMPLIED for the accumulator. -/
def rmwCycles (o : RmwOperand) : Nat :=
  match o with
  | .acc   => 2
  | .zp _  => 5
  | .zpx _ | .abs _ => 6
  | .abx _ => 7

/-- The REL and ZPR rows of R368: `base` when not taken, one more when taken, one more when crossed. -/
def branchCycles (base : Nat) (taken : Bool) (next : Word) (off : Byte) : Nat :=
  if taken then (if hi8 (next + sext16 off) = hi8 next then base + 1 else base + 2) else base

/-- The (host operations) row of R368. The setters and Poke make no counted access (R26, R60). -/
def hostCycles (c : HostCall) (s : State) : Nat :=
  let entry := if s.cfg.intVectorFetchCounted then 5 else 3
  match c with
  | .nmi => entry
  | .irq => if s.I then 0 else entry
  | .step | .reset | .setA _ | .setX _ | .setY _ | .setS _ | .setPC _ | .setC _ | .setZ _ | .setI _ | .setD _ | .setV _
  | .setN _ | .setP _ | .poke _ _ => 0

/-- The counted accesses of an instruction (R368). -/
def cycleCount (i : Instr) (s : State) : Nat :=
  match i with
  | .lda o | .ldx o | .ldy o | .and o | .ora o | .eor o | .cmp o | .cpx o | .cpy o | .bit o => readCycles s o
  | .adc o | .sbc o => readCycles s o + plusD s
  | .sta o | .stx o | .sty o | .stz o => writeCycles o
  | .asl o | .lsr o | .rol o | .ror o | .inc o | .dec o | .tsb o | .trb o => rmwCycles o
  | .rmb0 _ | .rmb1 _ | .rmb2 _ | .rmb3 _ | .rmb4 _ | .rmb5 _ | .rmb6 _ | .rmb7 _
  | .smb0 _ | .smb1 _ | .smb2 _ | .smb3 _ | .smb4 _ | .smb5 _ | .smb6 _ | .smb7 _ => 5
  | .bpl off => branchCycles 2 (!s.N) (s.PC + 2) off
  | .bmi off => branchCycles 2 s.N (s.PC + 2) off
  | .bvc off => branchCycles 2 (!s.V) (s.PC + 2) off
  | .bvs off => branchCycles 2 s.V (s.PC + 2) off
  | .bcc off => branchCycles 2 (!s.C) (s.PC + 2) off
  | .bcs off => branchCycles 2 s.C (s.PC + 2) off
  | .bne off => branchCycles 2 (!s.Z) (s.PC + 2) off
  | .beq off => branchCycles 2 s.Z (s.PC + 2) off
  | .bra off => branchCycles 2 true (s.PC + 2) off
  | .bbr0 zp off => branchCycles 5 (bitOf (s.peek (zeroPage zp)) 0 == false) (s.PC + 3) off
  | .bbr1 zp off => branchCycles 5 (bitOf (s.peek (zeroPage zp)) 1 == false) (s.PC + 3) off
  | .bbr2 zp off => branchCycles 5 (bitOf (s.peek (zeroPage zp)) 2 == false) (s.PC + 3) off
  | .bbr3 zp off => branchCycles 5 (bitOf (s.peek (zeroPage zp)) 3 == false) (s.PC + 3) off
  | .bbr4 zp off => branchCycles 5 (bitOf (s.peek (zeroPage zp)) 4 == false) (s.PC + 3) off
  | .bbr5 zp off => branchCycles 5 (bitOf (s.peek (zeroPage zp)) 5 == false) (s.PC + 3) off
  | .bbr6 zp off => branchCycles 5 (bitOf (s.peek (zeroPage zp)) 6 == false) (s.PC + 3) off
  | .bbr7 zp off => branchCycles 5 (bitOf (s.peek (zeroPage zp)) 7 == false) (s.PC + 3) off
  | .bbs0 zp off => branchCycles 5 (bitOf (s.peek (zeroPage zp)) 0 == true) (s.PC + 3) off
  | .bbs1 zp off => branchCycles 5 (bitOf (s.peek (zeroPage zp)) 1 == true) (s.PC + 3) off
  | .bbs2 zp off => branchCycles 5 (bitOf (s.peek (zeroPage zp)) 2 == true) (s.PC + 3) off
  | .bbs3 zp off => branchCycles 5 (bitOf (s.peek (zeroPage zp)) 3 == true) (s.PC + 3) off
  | .bbs4 zp off => branchCycles 5 (bitOf (s.peek (zeroPage zp)) 4 == true) (s.PC + 3) off
  | .bbs5 zp off => branchCycles 5 (bitOf (s.peek (zeroPage zp)) 5 == true) (s.PC + 3) off
  | .bbs6 zp off => branchCycles 5 (bitOf (s.peek (zeroPage zp)) 6 == true) (s.PC + 3) off
  | .bbs7 zp off => branchCycles 5 (bitOf (s.peek (zeroPage zp)) 7 == true) (s.PC + 3) off
  | .jmp (.abs _) => 3
  | .jmp (.ind _) => 5
  | .jmp (.iax _) => 6
  | .pha | .php | .phx | .phy => 3
  | .pla | .plp | .plx | .ply => 4
  | .jsr _ | .rts | .rti => 6
  | .brk => 7
  | .tax | .tay | .txa | .tya | .tsx | .txs | .inx | .iny | .dex | .dey | .clc | .sec | .cli | .sei | .cld | .sed | .clv
  | .nop => 2
  | .wai | .stp | .illegal _ => 1

end Sys2Proof.Machine
end

