-- ==== Sys2Proof/Safety.lean ====
section
/-! DEFINITION. The terms the claims use: the architectural part of a state, the invariant, which instructions stop, which write
each flag and register (spec 10_state.md R21 to R24, R36 to R41), and what a safe outcome is (60_exceptions.md R400 to R407). -/

namespace Sys2Proof

/-- The three kinds of term whose meaning is a fault on every path (R404, R406). -/
def Instr.stops : Instr → Bool
  | .wai | .stp | .illegal _ => true
  | _ => false

namespace Machine

/-- The state without the trace and the cycle counter: registers, flags, memory, and everything else State holds (R14, R46). -/
def State.arch (s : State) : State := { s with trace := [], cycles := 0 }

/-- The state without memory, the trace and the cycle counter: what a storing instruction is said to leave in the registers; what
it leaves in memory is said byte by byte. -/
def State.regs (s : State) : State := { s with mem := [], trace := [], cycles := 0 }

/-- Memory is in its canonical form. -/
def Inv (s : State) : Prop := memWf s.mem = true

/-- P4 and P5 have their default values (R9). -/
def DefaultDummies (cfg : Config) : Prop := cfg.dummyAddresses = [] ∧ cfg.cmosDecExtraAddress = .table

/-- The address after the instruction (R92). -/
def State.after (s : State) (i : Instr) : Word := s.PC + BitVec.ofNat 16 i.length

/-- Both digits of the byte are decimal digits (R184, R189). -/
def isBcd (v : Byte) : Prop := v.toNat % 16 ≤ 9 ∧ v.toNat / 16 ≤ 9

/-- The number that two decimal digits stand for. -/
def bcdValue (v : Byte) : Nat := 10 * (v.toNat / 16) + v.toNat % 16

/-- What `Step()` makes of what an instruction answers: one more completed instruction (R431), or the fault as it is. -/
def retired : Host.Outcome State Fault Refusal → Host.Outcome State Fault Refusal
  | .next t    => .next { t with instrs := t.instrs + 1 }
  | .fault f   => .fault f
  | .refused r => .refused r

/-! ## Completing

Each says that `exec` answers a next state, and says of that state everything but the trace and the cycle counter, which the bus
pattern fixes. -/

/-- The instruction completes, and the state is `u`. -/
def Completes (i : Instr) (s u : State) : Prop :=
  ∃ t, exec i s = .next t ∧ t.arch = u.arch

/-- The instruction completes, the registers and flags are those of `u`, and each byte of memory is as `mem` says. -/
def CompletesWith (i : Instr) (s u : State) (mem : Word → Byte) : Prop :=
  ∃ t, exec i s = .next t ∧ t.regs = u.regs ∧ ∀ a, t.peek a = mem a

/-- Memory as in `s`, but for one byte. -/
def State.withByte (s : State) (at_ : Word) (v : Byte) : Word → Byte :=
  fun a => if a = at_ then v else s.peek a

/-- A read-modify-write completes with the result `new` in its destination: A for the accumulator form, the one byte at the
effective address in memory; everything else is as in `u`. -/
def CompletesModify (i : Instr) (s u : State) (o : RmwOperand) (new : Byte) : Prop :=
  match rmwData o with
  | none   => Completes i s { u with A := new }
  | some d => CompletesWith i s u (s.withByte (s.ea d) new)

/-! ## Who writes what (R21 to R24, R36 to R41). The second line of each is every other instruction. -/

/-- R36: the instructions that write C. -/
def writesC : Instr → Bool
  | .adc _ | .sbc _ | .cmp _ | .cpx _ | .cpy _ | .asl _ | .rol _ | .lsr _ | .ror _ | .clc | .sec | .plp | .rti => true
  | _ => false

/-- R37: the instructions that write Z. -/
def writesZ : Instr → Bool
  | .lda _ | .ldx _ | .ldy _ | .and _ | .ora _ | .eor _ | .adc _ | .sbc _ | .cmp _ | .cpx _ | .cpy _ | .asl _ | .lsr _
  | .rol _ | .ror _ | .inc _ | .dec _ | .inx | .iny | .dex | .dey | .tax | .tay | .txa | .tya | .tsx | .pla | .plx | .ply
  | .bit _ | .trb _ | .tsb _ | .plp | .rti => true
  | _ => false

/-- R38: the instructions that write I. -/
def writesI : Instr → Bool
  | .sei | .cli | .brk | .plp | .rti => true
  | _ => false

/-- R39: the instructions that write D; BRK on CMOS65C02 only. -/
def writesD (cfg : Config) : Instr → Bool
  | .sed | .cld | .plp | .rti => true
  | .brk => cfg.variant = .cmos65C02
  | _ => false

/-- R40: the instructions that write V; BIT in a memory mode only. -/
def writesV : Instr → Bool
  | .adc _ | .sbc _ | .clv | .plp | .rti => true
  | .bit (.imm _) => false
  | .bit _ => true
  | _ => false

/-- R41: the instructions that write N: those of SetNZ, BIT in a memory mode, PLP, RTI; not TRB, TSB. -/
def writesN : Instr → Bool
  | .tsb _ | .trb _ | .bit (.imm _) => false
  | i => writesZ i

/-- R21: the instructions that write A. -/
def writesA : Instr → Bool
  | .lda _ | .adc _ | .sbc _ | .and _ | .ora _ | .eor _ | .pla | .txa | .tya => true
  | .asl .acc | .lsr .acc | .rol .acc | .ror .acc | .inc .acc | .dec .acc => true
  | _ => false

/-- R22: the instructions that write X. -/
def writesX : Instr → Bool
  | .ldx _ | .plx | .tax | .tsx | .inx | .dex => true
  | _ => false

/-- R23: the instructions that write Y. -/
def writesY : Instr → Bool
  | .ldy _ | .ply | .tay | .iny | .dey => true
  | _ => false

/-- R24: the instructions that write S. -/
def writesS : Instr → Bool
  | .pha | .php | .phx | .phy | .pla | .plp | .plx | .ply | .jsr _ | .rts | .brk | .rti | .txs => true
  | _ => false

/-- The instructions that write memory: the stores (R200), the memory forms of read-modify-write (R210), the pushes, JSR and
BRK (R283). -/
def writesMemory : Instr → Bool
  | .sta _ | .stx _ | .sty _ | .stz _ => true
  | .asl o | .lsr o | .rol o | .ror o | .inc o | .dec o | .tsb o | .trb o => o != .acc
  | .rmb0 _ | .rmb1 _ | .rmb2 _ | .rmb3 _ | .rmb4 _ | .rmb5 _ | .rmb6 _ | .rmb7 _ => true
  | .smb0 _ | .smb1 _ | .smb2 _ | .smb3 _ | .smb4 _ | .smb5 _ | .smb6 _ | .smb7 _ => true
  | .pha | .php | .phx | .phy | .jsr _ | .brk => true
  | _ => false

/-- The control transfers: after any other instruction PC is the address after it (R25). -/
def transfersControl : Instr → Bool
  | .bpl _ | .bmi _ | .bvc _ | .bvs _ | .bcc _ | .bcs _ | .bne _ | .beq _ | .bra _ => true
  | .bbr0 _ _ | .bbr1 _ _ | .bbr2 _ _ | .bbr3 _ _ | .bbr4 _ _ | .bbr5 _ _ | .bbr6 _ _ | .bbr7 _ _ => true
  | .bbs0 _ _ | .bbs1 _ _ | .bbs2 _ _ | .bbs3 _ _ | .bbs4 _ _ | .bbs5 _ _ | .bbs6 _ _ | .bbs7 _ _ => true
  | .jmp _ | .jsr _ | .rts | .rti | .brk => true
  | _ => false

/-- The instructions whose result depends on D or that write it: the arithmetic, the packing, and D's own (R39). -/
def touchesD : Instr → Bool
  | .adc _ | .sbc _ | .php | .brk | .sed | .cld | .plp | .rti => true
  | _ => false

/-! ## Safe outcomes and runs -/

/-- One of the outcomes that R400 to R402 allow for a step: a next state, an illegal opcode or an unsupported instruction; never the
internal-consistency fault of R405 and never a refusal. -/
def SafeOutcome : Host.Outcome State Fault Refusal → Prop
  | .next _ => True
  | .fault (.illegalOpcode _ _ _) => True
  | .fault (.unsupportedInstruction _ _ _) => True
  | .fault (.unhandledAddressingMode _ _ _) => False
  | .refused _ => False

/-- `t` is reached from `s` by steps that answer a next state. -/
inductive RunsTo : State → State → Prop where
  | refl (s : State) : RunsTo s s
  | step {s t u : State} : RunsTo s t → Machine.step t = .next u → RunsTo s u

end Machine
end Sys2Proof
end

