-- ==== Sys2Proof/Certificates/Slice0/Obligations.lean ====
section
/-! DEFINITION. The statements for the provers. Where a statement says that an instruction completes, it says of the next state
everything but the trace and the cycle counter; the bus pattern statement says those. -/

open Sys2Proof Sys2Proof.Machine

/-! ## Encoding (30_encoding.md) -/

/-- Byte strings written from the opcode matrix and the syntax table decode to the instruction they stand for, one or more of
every family, on the variant that has them. -/
def Obligations.SpecWordsDecodeAsWritten : Prop :=
  decode {} [0xA9, 0x7F] = .ok (.lda (.imm 0x7F), []) ∧
  decode {} [0xBD, 0x34, 0x12] = .ok (.lda (.abx 0x1234), []) ∧
  decode {} [0xE9, 0xF0] = .ok (.sbc (.imm 0xF0), []) ∧
  decode {} [0x8D, 0x00, 0x02] = .ok (.sta (.abs 0x0200), []) ∧
  decode {} [0x0A] = .ok (.asl .acc, []) ∧
  decode {} [0x37, 0x12] = .ok (.rmb3 0x12, []) ∧
  decode {} [0xD0, 0xFB] = .ok (.bne 0xFB, []) ∧
  decode {} [0x3F, 0x10, 0x04] = .ok (.bbr3 0x10 0x04, []) ∧
  decode {} [0x6C, 0xFF, 0x30] = .ok (.jmp (.ind 0x30FF), []) ∧
  decode {} [0x20, 0x34, 0x12] = .ok (.jsr 0x1234, []) ∧
  decode {} [0x18] = .ok (.clc, []) ∧
  decode { variant := .nmos6502 } [0x80] = .ok (.illegal 0x80, [])

/-- For every configuration and every well-formed instruction, with every operand at every value, encode answers its bytes,
as many as its length, and decoding them, whatever follows, answers the instruction and the bytes that follow. -/
def Obligations.DecodeInvertsEncode : Prop :=
  ∀ (cfg : Config) (i : Instr) (rest : List Byte), i.wellFormed cfg = true →
    ∃ bytes, encode i = some bytes ∧ bytes.length = i.length ∧ decode cfg (bytes ++ rest) = .ok (i, rest)

/-- Whenever the decoder reads an instruction from a byte list, the instruction is well-formed and its encoding followed by
the rest is that byte list: a byte string has one meaning, and no neighbour encoding falls through. -/
def Obligations.EncodeInvertsDecode : Prop :=
  ∀ (cfg : Config) (bs rest : List Byte) (i : Instr), decode cfg bs = .ok (i, rest) →
    i.wellFormed cfg = true ∧ ∃ bytes, encode i = some bytes ∧ bytes ++ rest = bs

/-- From three bytes the decoder always reads an instruction, takes as many bytes as its length, and reads the illegal marker
exactly when the first byte is an illegal byte of the variant; from no bytes it refuses by name. -/
def Obligations.DecodingIsTotal : Prop :=
  (∀ cfg, decode cfg [] = .error .noBytes) ∧
  ∀ (cfg : Config) (b0 b1 b2 : Byte) (rest : List Byte), ∃ i,
    decode cfg (b0 :: b1 :: b2 :: rest) = .ok (i, (b0 :: b1 :: b2 :: rest).drop i.length) ∧
      (isIllegalByte cfg b0 = true ↔ i = .illegal b0)

/-! ## The step (60_exceptions.md R430, 00_scope.md R15, R18) -/

/-- When the three bytes from PC decode to i, a step with no host call pending, or with Step() as the next call, is exec of i
on the state with the trace emptied; on completion the instruction counter is one more; a fault stays that fault. That Step()
may stand in a list of calls, and that the call then leaves the list and runs as a step of its own, is the model's choice
(notes/assumptions/4.md). -/
def Obligations.StepRunsTheDecodedInstruction : Prop :=
  ∀ (s : State) (i : Instr) (rest : List Byte) (calls : List HostCall),
    decode s.cfg [s.peek s.PC, s.peek (s.PC + 1), s.peek (s.PC + 2)] = .ok (i, rest) →
      (s.host = [] → step s = retired (exec i { s with trace := [] })) ∧
      (s.host = .step :: calls → step s = retired (exec i { s with trace := [], host := calls }))

/-- When the bytes of a well-formed instruction lie in memory from PC upwards (addresses modulo 65536) and no host call is
pending, the step is exec of that instruction, and the instruction counter is one more on completion. -/
def Obligations.StepRunsTheInstructionInMemory : Prop :=
  ∀ (s : State) (i : Instr) (bytes : List Byte), s.host = [] → i.wellFormed s.cfg = true → encode i = some bytes →
    (∀ k, (h : k < bytes.length) → s.peek (s.PC + BitVec.ofNat 16 k) = bytes[k]) →
      step s = retired (exec i { s with trace := [] })

/-- Each of the host setters and Poke, as the next pending call, is a step that writes the one register or flag, the six
flags for the packed status, or the one byte, and makes no counted access; nothing else changes. That a host call is a step
that leaves the call list and begins an empty trace is the model's choice (notes/assumptions/4.md, 5.md), and that the
counters stay as they are is deduced (notes/assumptions/6.md). -/
def Obligations.HostSettersWriteOneThing : Prop :=
  ∀ (s : State) (calls : List HostCall) (v : Byte) (w : Word) (b : Bool),
    ∀ p ∈ [(HostCall.setA v, { s with A := v }), (.setX v, { s with X := v }), (.setY v, { s with Y := v }),
        (.setS v, { s with S := v }), (.setPC w, { s with PC := w }), (.setC b, { s with C := b }), (.setZ b, { s with Z := b }),
        (.setI b, { s with I := b }), (.setD b, { s with D := b }), (.setV b, { s with V := b }), (.setN b, { s with N := b }),
        (.setP v, { s with C := bitOf v 0, Z := bitOf v 1, I := bitOf v 2, D := bitOf v 3, V := bitOf v 6, N := bitOf v 7 }),
        (.poke w v, { s with mem := memWrite s.mem w.toNat v })],
      step { s with host := p.1 :: calls } = .next { p.2 with host := calls, trace := [] }

/-! ## Effective addresses (40_addressing_modes.md) -/

/-- The effective address of each mode as a number: page 0 modes wrap modulo 256, absolute and pointer plus index modulo
65536, pointers are read little-endian from page 0 with their second byte wrapping in page 0; the operand is the operand byte
for IMM and the byte at the address otherwise. -/
def Obligations.EffectiveAddressOfEachMode : Prop :=
  ∀ (s : State) (b : Byte) (w : Word),
    let page0 : Nat → Nat := fun z => (memRead s.mem (z % 256)).toNat + 256 * (memRead s.mem ((z + 1) % 256)).toNat
    (s.ea (.imm b)).toNat = (s.PC.toNat + 1) % 65536 ∧
    (s.ea (.zp b)).toNat = b.toNat ∧
    (s.ea (.zpx b)).toNat = (b.toNat + s.X.toNat) % 256 ∧
    (s.ea (.zpy b)).toNat = (b.toNat + s.Y.toNat) % 256 ∧
    s.ea (.abs w) = w ∧
    (s.ea (.abx w)).toNat = (w.toNat + s.X.toNat) % 65536 ∧
    (s.ea (.aby w)).toNat = (w.toNat + s.Y.toNat) % 65536 ∧
    (s.ea (.izx b)).toNat = page0 (b.toNat + s.X.toNat) ∧
    (s.ea (.izy b)).toNat = (page0 b.toNat + s.Y.toNat) % 65536 ∧
    (s.ea (.izp b)).toNat = page0 b.toNat ∧
    ∀ o, s.operand o = match o with | .imm v => v | _ => s.peek (s.ea o)

/-- In every mode, crossed holds exactly when the low byte of the base plus the index reaches 256; the uncorrected address is
the effective address when not crossed and one page below it when crossed. -/
def Obligations.PageCrossingIsTheNinthBit : Prop :=
  ∀ (s : State) (o : DataOperand),
    (s.crossed o = true ↔ 256 ≤ (s.eaBase o).toNat % 256 + (s.eaIndex o).toNat) ∧
    (s.crossed o = false → s.unc o = s.ea o) ∧
    (s.crossed o = true → s.unc o = s.ea o - 0x0100)

/-! ## Read class (41_read_class.md) -/

/-- In every mode it has, a load completes with its register the operand, Z and N from the operand, and PC after the
instruction; every other register and flag, the special fields and all of memory are unchanged. -/
def Obligations.LoadsFillTheirRegister : Prop :=
  ∀ (s : State) (o : DataOperand),
    let m := s.operand o
    ((Instr.lda o).wellFormed s.cfg = true →
      Completes (.lda o) s { s with A := m, Z := m == 0, N := bitOf m 7, PC := s.after (.lda o) }) ∧
    ((Instr.ldx o).wellFormed s.cfg = true →
      Completes (.ldx o) s { s with X := m, Z := m == 0, N := bitOf m 7, PC := s.after (.ldx o) }) ∧
    ((Instr.ldy o).wellFormed s.cfg = true →
      Completes (.ldy o) s { s with Y := m, Z := m == 0, N := bitOf m 7, PC := s.after (.ldy o) })

/-- In every mode it has, AND, ORA or EOR completes with A the bitwise result, Z and N from it, and PC after the instruction;
everything else is unchanged. -/
def Obligations.LogicWorksOnTheAccumulator : Prop :=
  ∀ (s : State) (o : DataOperand),
    let m := s.operand o
    ∀ p ∈ [(Instr.and o, s.A &&& m), (.ora o, s.A ||| m), (.eor o, s.A ^^^ m)], p.1.wellFormed s.cfg = true →
      Completes p.1 s { s with A := p.2, Z := p.2 == 0, N := bitOf p.2 7, PC := s.after p.1 }

/-- A compare completes with C set when the register is at least the operand as unsigned bytes, Z when they are equal, N bit
7 of the wrapped difference, whatever D and C were; everything else but PC is unchanged. -/
def Obligations.ComparesWriteThreeFlags : Prop :=
  ∀ (s : State) (o : DataOperand),
    let m := s.operand o
    ∀ p ∈ [(Instr.cmp o, s.A), (.cpx o, s.X), (.cpy o, s.Y)], p.1.wellFormed s.cfg = true →
      Completes p.1 s { s with C := decide (m.toNat ≤ p.2.toNat), Z := decide (p.2.toNat = m.toNat),
                               N := decide (128 ≤ (p.2.toNat + 256 - m.toNat) % 256), PC := s.after p.1 }

/-- BIT completes with Z from A AND the operand; in a memory mode N and V are bits 7 and 6 of the operand, in IMM they are
unchanged; everything else but PC is unchanged. -/
def Obligations.BitTestsItsOperand : Prop :=
  ∀ (s : State) (o : DataOperand), (Instr.bit o).wellFormed s.cfg = true →
    let m := s.operand o
    let z := (s.A &&& m) == 0
    match o with
    | .imm _ => Completes (.bit o) s { s with Z := z, PC := s.after (.bit o) }
    | _ => Completes (.bit o) s { s with Z := z, N := bitOf m 7, V := bitOf m 6, PC := s.after (.bit o) }

/-! ## ADC and SBC (42_adc_sbc.md) -/

/-- For all bytes and carry-in the result and carry are the sum in nine bits; V is set exactly when the operands have the
same bit 7 and the result the other, which is exactly when the signed sum lies outside -128 to 127. -/
def Obligations.AddBinIsExactAddition : Prop :=
  ∀ (a m : Byte) (c : Bool),
    let r := adcBinary a m c
    r.A.toNat + 256 * flagNat r.C = a.toNat + m.toNat + flagNat c ∧
    (r.V = true ↔ bitOf a 7 = bitOf m 7 ∧ bitOf r.A 7 ≠ bitOf a 7) ∧
    (r.V = true ↔ ¬ (-128 ≤ a.toInt + m.toInt + flagNat c ∧ a.toInt + m.toInt + flagNat c ≤ 127))

/-- With D clear, ADC completes with A and C the sum A + M + C, and SBC with A and C the difference A - M - (1 - C), C clear
on a borrow; V is signed overflow, Z and N are from the result; everything else but PC is unchanged. The same on both
variants. -/
def Obligations.BinaryAddAndSubtractAreExact : Prop :=
  ∀ (s : State) (o : DataOperand), s.D = false →
    let m := s.operand o
    ((Instr.adc o).wellFormed s.cfg = true → ∃ t, exec (.adc o) s = .next t ∧
      t.A.toNat + 256 * flagNat t.C = s.A.toNat + m.toNat + flagNat s.C ∧
      (t.V = true ↔ ¬ (-128 ≤ s.A.toInt + m.toInt + flagNat s.C ∧ s.A.toInt + m.toInt + flagNat s.C ≤ 127)) ∧
      t.arch = { s with A := t.A, C := t.C, V := t.V, Z := t.A == 0, N := bitOf t.A 7, PC := s.after (.adc o) }.arch) ∧
    ((Instr.sbc o).wellFormed s.cfg = true → ∃ t, exec (.sbc o) s = .next t ∧
      (t.A.toNat : Int) - 256 * (1 - flagNat t.C) = (s.A.toNat : Int) - m.toNat - (1 - flagNat s.C) ∧
      (t.V = true ↔ ¬ (-128 ≤ s.A.toInt - m.toInt - (1 - flagNat s.C) ∧ s.A.toInt - m.toInt - (1 - flagNat s.C) ≤ 127)) ∧
      t.arch = { s with A := t.A, C := t.C, V := t.V, Z := t.A == 0, N := bitOf t.A 7, PC := s.after (.sbc o) }.arch)

/-- With D set and both operands valid BCD, A is valid BCD and A and C are the decimal sum, or the decimal difference with C
clear on a borrow, on both variants and for both values of P8. -/
def Obligations.DecimalAddAndSubtractOnDigits : Prop :=
  ∀ (s : State) (o : DataOperand), s.D = true → isBcd s.A → isBcd (s.operand o) →
    let m := s.operand o
    ((Instr.adc o).wellFormed s.cfg = true → ∃ t, exec (.adc o) s = .next t ∧ isBcd t.A ∧
      bcdValue t.A + 100 * flagNat t.C = bcdValue s.A + bcdValue m + flagNat s.C) ∧
    ((Instr.sbc o).wellFormed s.cfg = true → ∃ t, exec (.sbc o) s = .next t ∧ isBcd t.A ∧
      (bcdValue t.A : Int) - 100 * (1 - flagNat t.C) = (bcdValue s.A : Int) - bcdValue m - (1 - flagNat s.C))

/-- With D set, on any operands: ADC takes C from the corrected sum; on NMOS6502 Z from the binary sum and N from the sum P8
names, on CMOS65C02 N and Z from the final A; V from the intermediate sum. SBC takes C and V from the binary subtraction, and
N and Z from it on NMOS6502, from the final A on CMOS65C02. I, D and everything else but PC are unchanged. -/
def Obligations.DecimalFlagSourcesPerVariant : Prop :=
  ∀ (s : State) (o : DataOperand), s.D = true →
    let m := s.operand o
    let bin := (s.A.toNat + m.toNat + flagNat s.C) % 256
    let mid := BitVec.ofNat 8 (decMidSum s.A m s.C)
    let dif := sbcBinary s.A m s.C
    ((Instr.adc o).wellFormed s.cfg = true → ∃ t, exec (.adc o) s = .next t ∧
      t.arch = { s with A := t.A, C := t.C, V := t.V, Z := t.Z, N := t.N, PC := s.after (.adc o) }.arch ∧
      t.A.toNat = decSum s.A m s.C % 256 ∧ (t.C = true ↔ 256 ≤ decSum s.A m s.C) ∧
      (t.V = true ↔ bitOf s.A 7 = bitOf m 7 ∧ bitOf mid 7 ≠ bitOf s.A 7) ∧
      (s.cfg.variant = .nmos6502 → t.Z = decide (bin = 0) ∧
        (s.cfg.nmosDecAdcN = .intermediate → t.N = bitOf mid 7) ∧ (s.cfg.nmosDecAdcN = .binary → t.N = decide (128 ≤ bin))) ∧
      (s.cfg.variant = .cmos65C02 → t.Z = (t.A == 0) ∧ t.N = bitOf t.A 7)) ∧
    ((Instr.sbc o).wellFormed s.cfg = true → ∃ t, exec (.sbc o) s = .next t ∧
      t.arch = { s with A := t.A, C := dif.C, V := dif.V, Z := t.Z, N := t.N, PC := s.after (.sbc o) }.arch ∧
      (s.cfg.variant = .nmos6502 → t.A = BitVec.ofInt 8 (decDiffNmos s.A m s.C) ∧ t.Z = (dif.A == 0) ∧ t.N = bitOf dif.A 7) ∧
      (s.cfg.variant = .cmos65C02 → t.A = BitVec.ofInt 8 (decDiffCmos s.A m s.C) ∧ t.Z = (t.A == 0) ∧ t.N = bitOf t.A 7))

/-! ## Store class (43_store_class.md) -/

/-- In every mode it has, with the opcode byte the rule gives it, a store completes with the byte at the effective address
its register (or zero), every other address reading as before, PC after the instruction, and no register or flag changed; STZ
on NMOS6502 is an illegal opcode. -/
def Obligations.StoresWriteOneByte : Prop :=
  ∀ (s : State) (o : DataOperand) (b : Byte) (w : Word),
    [opcodeOf (.sta (.zp b)), opcodeOf (.sta (.zpx b)), opcodeOf (.sta (.abs w)), opcodeOf (.sta (.abx w)), opcodeOf (.sta (.aby w)),
      opcodeOf (.sta (.izx b)), opcodeOf (.sta (.izy b)), opcodeOf (.sta (.izp b))]
      = [some 0x85, some 0x95, some 0x8D, some 0x9D, some 0x99, some 0x81, some 0x91, some 0x92] ∧
    [opcodeOf (.stx (.zp b)), opcodeOf (.stx (.zpy b)), opcodeOf (.stx (.abs w))] = [some 0x86, some 0x96, some 0x8E] ∧
    [opcodeOf (.sty (.zp b)), opcodeOf (.sty (.zpx b)), opcodeOf (.sty (.abs w))] = [some 0x84, some 0x94, some 0x8C] ∧
    [opcodeOf (.stz (.zp b)), opcodeOf (.stz (.zpx b)), opcodeOf (.stz (.abs w)), opcodeOf (.stz (.abx w))]
      = [some 0x64, some 0x74, some 0x9C, some 0x9E] ∧
    (∀ p ∈ [(Instr.sta o, s.A), (.stx o, s.X), (.sty o, s.Y), (.stz o, 0x00)], p.1.wellFormed s.cfg = true →
      CompletesWith p.1 s { s with PC := s.after p.1 } (s.withByte (s.ea o) p.2)) ∧
    (∀ op, s.cfg.variant = .nmos6502 → opcodeOf (.stz o) = some op → 
      exec (.stz o) s = .fault (.illegalOpcode s.PC op (s.trace ++ [rd s s.PC])))

/-! ## Read-modify-write class (44_rmw.md) -/

/-- In every mode it has, a shift or rotate completes with the nine-bit move of the old byte and C in its destination, C the
bit shifted out, N and Z from the result; everything else but PC, and every other address, is unchanged. -/
def Obligations.ShiftsAndRotatesMoveOneBit : Prop :=
  ∀ (s : State) (o : RmwOperand),
    let v := (s.rmwOld o).toNat
    let c := flagNat s.C
    ∀ p ∈ [(Instr.asl o, 2 * v, decide (128 ≤ v)), (.rol o, 2 * v + c, decide (128 ≤ v)), (.lsr o, v / 2, decide (v % 2 = 1)),
        (.ror o, v / 2 + 128 * c, decide (v % 2 = 1))], p.1.wellFormed s.cfg = true →
      CompletesModify p.1 s { s with C := p.2.2, Z := decide (p.2.1 % 256 = 0), N := decide (128 ≤ p.2.1 % 256),
                                     PC := s.after p.1 } o (BitVec.ofNat 8 p.2.1)

/-- In every mode it has, INC or DEC completes with its destination one more or one less modulo 256 whatever D is, N and Z
from the result; everything else but PC, and every other address, is unchanged. -/
def Obligations.IncAndDecWrapModulo256 : Prop :=
  ∀ (s : State) (o : RmwOperand),
    ∀ p ∈ [(Instr.inc o, s.rmwOld o + 1), (.dec o, s.rmwOld o - 1)], p.1.wellFormed s.cfg = true →
      CompletesModify p.1 s { s with Z := p.2 == 0, N := bitOf p.2 7, PC := s.after p.1 } o p.2

/-- TSB and TRB complete with the byte at the effective address OR A, or AND the complement of A, Z from A AND the old byte;
A, the other flags and every other address are unchanged. -/
def Obligations.TestAndSetOrResetBits : Prop :=
  ∀ (s : State) (o : RmwOperand),
    let v := s.rmwOld o
    ∀ p ∈ [(Instr.tsb o, v ||| s.A), (.trb o, v &&& ~~~s.A)], p.1.wellFormed s.cfg = true →
      CompletesModify p.1 s { s with Z := (s.A &&& v) == 0, PC := s.after p.1 } o p.2

/-- RMBn and SMBn complete with bit n of the zero page byte reset or set and its other seven bits, every other address, every
flag and register but PC unchanged. -/
def Obligations.BitNumberedInstructionsMoveOneBit : Prop :=
  ∀ (s : State) (zp : Byte),
    ∀ p ∈ [(Instr.rmb0 zp, 0, false), (.rmb1 zp, 1, false), (.rmb2 zp, 2, false), (.rmb3 zp, 3, false), (.rmb4 zp, 4, false),
        (.rmb5 zp, 5, false), (.rmb6 zp, 6, false), (.rmb7 zp, 7, false), (.smb0 zp, 0, true), (.smb1 zp, 1, true),
        (.smb2 zp, 2, true), (.smb3 zp, 3, true), (.smb4 zp, 4, true), (.smb5 zp, 5, true), (.smb6 zp, 6, true),
        (.smb7 zp, 7, true)], p.1.wellFormed s.cfg = true →
      ∃ t, exec p.1 s = .next t ∧ t.regs = { s with PC := s.PC + 2 }.regs ∧
        (∀ k, bitOf (t.peek (zeroPage zp)) k = if k = p.2.1 then p.2.2 else bitOf (s.peek (zeroPage zp)) k) ∧
        ∀ a, a ≠ zeroPage zp → t.peek a = s.peek a

/-! ## Branches and jumps (45_branch_jump.md) -/

/-- A branch completes; when its condition on the flag holds PC is the next instruction plus the signed displacement modulo
65536, otherwise the next instruction; nothing else changes. -/
def Obligations.BranchesFollowTheirFlag : Prop :=
  ∀ (s : State) (off : Byte),
    ∀ p ∈ [(Instr.bpl off, !s.N), (.bmi off, s.N), (.bvc off, !s.V), (.bvs off, s.V), (.bcc off, !s.C), (.bcs off, s.C),
        (.bne off, !s.Z), (.beq off, s.Z), (.bra off, true)], p.1.wellFormed s.cfg = true →
      Completes p.1 s { s with PC := if p.2 then BitVec.ofInt 16 (s.PC.toNat + 2 + off.toInt) else s.PC + 2 }

/-- BBRn (BBSn) completes; PC is p + 3 plus the signed displacement when bit n of the zero page byte is 0 (1), otherwise p +
3; nothing else changes. -/
def Obligations.BitBranchesTestOneBit : Prop :=
  ∀ (s : State) (zp off : Byte),
    let m := s.peek (zeroPage zp)
    ∀ p ∈ [(Instr.bbr0 zp off, !bitOf m 0), (.bbr1 zp off, !bitOf m 1), (.bbr2 zp off, !bitOf m 2), (.bbr3 zp off, !bitOf m 3),
        (.bbr4 zp off, !bitOf m 4), (.bbr5 zp off, !bitOf m 5), (.bbr6 zp off, !bitOf m 6), (.bbr7 zp off, !bitOf m 7),
        (.bbs0 zp off, bitOf m 0), (.bbs1 zp off, bitOf m 1), (.bbs2 zp off, bitOf m 2), (.bbs3 zp off, bitOf m 3),
        (.bbs4 zp off, bitOf m 4), (.bbs5 zp off, bitOf m 5), (.bbs6 zp off, bitOf m 6), (.bbs7 zp off, bitOf m 7)],
      p.1.wellFormed s.cfg = true →
        Completes p.1 s { s with PC := if p.2 then BitVec.ofInt 16 (s.PC.toNat + 3 + off.toInt) else s.PC + 3 }

/-- JMP completes with PC its target and nothing else changed: the operand for ABS; for IND the word at the pointer, whose
high byte comes from the same page on NMOS6502 (from the start of the page when the pointer ends in 0xFF) and from the next
address on CMOS65C02; for IAX the word at the operand plus X modulo 65536. -/
def Obligations.JumpGoesToItsTarget : Prop :=
  ∀ (s : State) (w : Word),
    Completes (.jmp (.abs w)) s { s with PC := w } ∧
    (s.cfg.variant = .nmos6502 → Completes (.jmp (.ind w)) s
      { s with PC := word (s.peek (if w.toNat % 256 = 255 then w - 0xFF else w + 1)) (s.peek w) }) ∧
    (s.cfg.variant = .cmos65C02 → Completes (.jmp (.ind w)) s { s with PC := word (s.peek (w + 1)) (s.peek w) }) ∧
    (s.cfg.variant = .cmos65C02 → Completes (.jmp (.iax w)) s
      { s with PC := word (s.peek (w + s.X.setWidth 16 + 1)) (s.peek (w + s.X.setWidth 16)) })

/-! ## Stack and interrupt-shaped instructions (46_stack_interrupt_shaped.md) -/

/-- With the opcode byte the rule gives it, a push completes with its byte (for PHP the status with Break and Unused 1) at
0x0100 + S, S one less modulo 256, PC one more, and every other register, flag and address unchanged; with the default dummy
addresses its accesses are the opcode fetch, a discarded read at p + 1 and the write; PHX and PHY are illegal opcodes on
NMOS6502. -/
def Obligations.PushesWriteTheStackByte : Prop :=
  ∀ s : State,
    [opcodeOf .pha, opcodeOf .php, opcodeOf .phx, opcodeOf .phy] = [some 0x48, some 0x08, some 0xDA, some 0x5A] ∧
    (∀ p ∈ [(Instr.pha, s.A), (.php, s.pack true), (.phx, s.X), (.phy, s.Y)], p.1.wellFormed s.cfg = true →
      ∃ t, exec p.1 s = .next t ∧ t.regs = { s with S := s.S - 1, PC := s.PC + 1 }.regs ∧
        (∀ a, t.peek a = if a.toNat = 256 + s.S.toNat then p.2 else s.peek a) ∧ t.cycles = s.cycles + 3 ∧
        (DefaultDummies s.cfg → t.trace = s.trace ++ [rd s s.PC, rd s (s.PC + 1), wr (stackAddr s.S) p.2])) ∧
    (s.cfg.variant = .nmos6502 →
      exec .phx s = .fault (.illegalOpcode s.PC 0xDA (s.trace ++ [rd s s.PC])) ∧
      exec .phy s = .fault (.illegalOpcode s.PC 0x5A (s.trace ++ [rd s s.PC])))

/-- With the opcode byte the rule gives it, a pull completes with S one more modulo 256, the byte at 0x0100 + the new S in
its register with N and Z from it, or in the six flags for PLP (bits 4 and 5 ignored), PC one more, and everything else and
all memory unchanged; with the default dummy addresses its accesses are the opcode fetch, two discarded reads at p + 1 and
0x0100 + S, and the pull; PLX and PLY are illegal opcodes on NMOS6502. -/
def Obligations.PullsReadTheStackByte : Prop :=
  ∀ s : State,
    let v := s.peek (stackAddr (s.S + 1))
    let u := { s with S := s.S + 1, PC := s.PC + 1 }
    [opcodeOf .pla, opcodeOf .plp, opcodeOf .plx, opcodeOf .ply] = [some 0x68, some 0x28, some 0xFA, some 0x7A] ∧
    (∀ p ∈ [(Instr.pla, { u with A := v, Z := v == 0, N := bitOf v 7 }), (.plx, { u with X := v, Z := v == 0, N := bitOf v 7 }),
        (.ply, { u with Y := v, Z := v == 0, N := bitOf v 7 }),
        (.plp, { u with C := bitOf v 0, Z := bitOf v 1, I := bitOf v 2, D := bitOf v 3, V := bitOf v 6, N := bitOf v 7 })],
      p.1.wellFormed s.cfg = true → ∃ t, exec p.1 s = .next t ∧ t.arch = p.2.arch ∧ t.cycles = s.cycles + 4 ∧
        (DefaultDummies s.cfg → t.trace = s.trace ++
          [rd s s.PC, rd s (s.PC + 1), rd s (stackAddr s.S), rd s (stackAddr (s.S + 1))])) ∧
    (s.cfg.variant = .nmos6502 →
      exec .plx s = .fault (.illegalOpcode s.PC 0xFA (s.trace ++ [rd s s.PC])) ∧
      exec .ply s = .fault (.illegalOpcode s.PC 0x7A (s.trace ++ [rd s s.PC])))

/-- JSR completes with p + 2 on the stack, high byte at 0x0100 + S and low byte below it, S two less, and PC made of its low
operand byte and of the byte that p + 2 holds after the pushes; so PC is the target when memory holds the instruction and no
push overwrites its last byte; flags, A, X, Y and every other address are unchanged. -/
def Obligations.JsrPushesThenReadsTheHighByte : Prop :=
  ∀ (s : State) (w : Word), ∃ t, exec (.jsr w) s = .next t ∧
    t.regs = { s with S := s.S - 2, PC := word (t.peek (s.PC + 2)) (lo8 w) }.regs ∧
    (∀ a, t.peek a = if a = stackAddr s.S then hi8 (s.PC + 2) else if a = stackAddr (s.S - 1) then lo8 (s.PC + 2) else s.peek a) ∧
    (s.peek (s.PC + 2) = hi8 w → s.PC + 2 ≠ stackAddr s.S → s.PC + 2 ≠ stackAddr (s.S - 1) → t.PC = w)

/-- RTS completes with PC the word pulled low byte first, plus one modulo 65536, S two more, and nothing else changed. -/
def Obligations.RtsReturnsAfterThePulledAddress : Prop :=
  ∀ s : State, Completes .rts s
    { s with S := s.S + 2, PC := word (s.peek (stackAddr (s.S + 2))) (s.peek (stackAddr (s.S + 1))) + 1 }

/-- From the state after any JSR, RTS completes with PC the address after the JSR and S and every other register and flag as
before the JSR, also when the stack pointer wraps. -/
def Obligations.JsrThenRtsReturnsAfterTheCall : Prop :=
  ∀ (s t : State) (w : Word), exec (.jsr w) s = .next t →
    ∃ u, exec .rts t = .next u ∧ u.regs = { s with PC := s.PC + 3 }.regs ∧ u.mem = t.mem

/-- BRK completes with p + 2 (high, low) and the status as it was with Break 1 on the stack, S three less, I set whatever it
was, D cleared on CMOS65C02 only, PC the word at 0xFFFE; A, X, Y, C, Z, V, N and every other address are unchanged. -/
def Obligations.BrkTakesTheException : Prop :=
  ∀ s : State, CompletesWith .brk s
    { s with S := s.S - 3, I := true, D := if s.cfg.variant = Variant.cmos65C02 then false else s.D,
             PC := word (s.peek 0xFFFF) (s.peek 0xFFFE) }
    (fun a => if a = stackAddr s.S then hi8 (s.PC + 2) else if a = stackAddr (s.S - 1) then lo8 (s.PC + 2)
      else if a = stackAddr (s.S - 2) then s.pack true else s.peek a)

/-- RTI completes with the six flags from the pulled status byte (bits 4 and 5 ignored) and PC the word pulled after it, S
three more, nothing else changed; after BRK it resumes at p + 2, after NMI and a taken IRQ at the interrupted address, with S
and every register and flag as they were. -/
def Obligations.RtiReturnsFromTheException : Prop :=
  ∀ s : State,
    (let v := s.peek (stackAddr (s.S + 1))
     Completes .rti s
      { s with C := bitOf v 0, Z := bitOf v 1, I := bitOf v 2, D := bitOf v 3, V := bitOf v 6, N := bitOf v 7, S := s.S + 3,
               PC := word (s.peek (stackAddr (s.S + 3))) (s.peek (stackAddr (s.S + 2))) }) ∧
    (∀ t, exec .brk s = .next t → ∃ u, exec .rti t = .next u ∧ u.regs = { s with PC := s.PC + 2 }.regs) ∧
    (∃ u, exec .rti s.nmi = .next u ∧ u.regs = { s with instrs := s.nmi.instrs, free := s.nmi.free }.regs) ∧
    (s.I = false → ∃ u, exec .rti s.irq = .next u ∧ u.regs = { s with instrs := s.irq.instrs, free := s.irq.free }.regs)

/-! ## Implied operands (47_implied.md) -/

/-- A transfer completes with its destination the source, N and Z from it but for TXS, which writes no flag, PC one more, and
everything else unchanged. -/
def Obligations.TransfersCopyTheRegister : Prop :=
  ∀ s : State,
    let u := { s with PC := s.PC + 1 }
    ∀ p ∈ [(Instr.tax, { u with X := s.A, Z := s.A == 0, N := bitOf s.A 7 }), (.tay, { u with Y := s.A, Z := s.A == 0, N := bitOf s.A 7 }),
        (.txa, { u with A := s.X, Z := s.X == 0, N := bitOf s.X 7 }), (.tya, { u with A := s.Y, Z := s.Y == 0, N := bitOf s.Y 7 }),
        (.tsx, { u with X := s.S, Z := s.S == 0, N := bitOf s.S 7 }), (.txs, { u with S := s.X })],
      Completes p.1 s p.2

/-- INX, INY, DEX, DEY complete with the register one more or less modulo 256 whatever D is, N and Z from it, PC one more,
and everything else unchanged. -/
def Obligations.IndexIncrementsWrapModulo256 : Prop :=
  ∀ s : State,
    let u := fun v : Byte => { s with Z := v == 0, N := bitOf v 7, PC := s.PC + 1 }
    Completes .inx s { u (s.X + 1) with X := s.X + 1 } ∧ Completes .iny s { u (s.Y + 1) with Y := s.Y + 1 } ∧
    Completes .dex s { u (s.X - 1) with X := s.X - 1 } ∧ Completes .dey s { u (s.Y - 1) with Y := s.Y - 1 }

/-- With the opcode byte the rule gives it, each flag instruction completes with its one flag written and PC one more, NOP
with PC one more, and everything else unchanged. -/
def Obligations.FlagInstructionsWriteOneFlag : Prop :=
  [opcodeOf .clc, opcodeOf .sec, opcodeOf .cli, opcodeOf .sei, opcodeOf .cld, opcodeOf .sed, opcodeOf .clv, opcodeOf .nop]
    = [some 0x18, some 0x38, some 0x58, some 0x78, some 0xD8, some 0xF8, some 0xB8, some 0xEA] ∧
  ∀ s : State,
    let u := { s with PC := s.PC + 1 }
    ∀ p ∈ [(Instr.clc, { u with C := false }), (.sec, { u with C := true }), (.cli, { u with I := false }), (.sei, { u with I := true }),
        (.cld, { u with D := false }), (.sed, { u with D := true }), (.clv, { u with V := false }), (.nop, u)],
      Completes p.1 s p.2

/-! ## Faults (60_exceptions.md) -/

/-- The instruction WAI (0xCB) or STP (0xDB) stops with UnsupportedInstruction, carrying PC and the byte, on CMOS65C02, and
with IllegalOpcode on NMOS6502, its one counted access the opcode fetch; so does the step that finds the byte at PC. -/
def Obligations.WaiAndStpFault : Prop :=
  ∀ (s : State) (op : Byte) (i : Instr), (op = 0xCB ∧ i = .wai) ∨ (op = 0xDB ∧ i = .stp) →
    opcodeOf i = some op ∧
    (s.cfg.variant = .cmos65C02 → exec i s = .fault (.unsupportedInstruction s.PC op (s.trace ++ [rd s s.PC])) ∧
      (s.host = [] → s.peek s.PC = op → step s = .fault (.unsupportedInstruction s.PC op [rd s s.PC]))) ∧
    (s.cfg.variant = .nmos6502 → exec i s = .fault (.illegalOpcode s.PC op (s.trace ++ [rd s s.PC])) ∧
      (s.host = [] → s.peek s.PC = op → step s = .fault (.illegalOpcode s.PC op [rd s s.PC])))

/-- The ILLEGAL entry stops with IllegalOpcode carrying the address of the opcode byte and the byte, and so does every step
that finds an illegal byte of the variant at PC, on both variants; the one counted access is the opcode fetch, and there is
no no-op and no other effect. -/
def Obligations.IllegalBytesFault : Prop :=
  ∀ (s : State) (op : Byte), exec (.illegal op) s = .fault (.illegalOpcode s.PC op (s.trace ++ [rd s s.PC])) ∧
    (s.host = [] → s.peek s.PC = op → isIllegalByte s.cfg op = true →
      step s = .fault (.illegalOpcode s.PC op [rd s s.PC]))

/-- A term that is not WAI, STP or ILLEGAL completes from every state when it is well-formed for the configuration; if its
mnemonic has the mode on the other variant or with P2 only, it stops with IllegalOpcode and its opcode byte, and if no table
has the pair, with UnhandledAddressingMode. No decoded instruction is such a term: what exec answers to the first is deduced
(notes/assumptions/11.md), to the second the model's choice (notes/assumptions/10.md). -/
def Obligations.WhichTermsRun : Prop :=
  ∀ (i : Instr) (s : State), i.stops = false →
    (i.wellFormed s.cfg = true → ∃ t, exec i s = .next t) ∧
    (∀ op, i.wellFormed s.cfg = false → opcodeOf i = some op → 
      exec i s = .fault (.illegalOpcode s.PC op (s.trace ++ [rd s s.PC]))) ∧
    (opcodeOf i = none → i.hasMode = false ∧
      exec i s = .fault (.unhandledAddressingMode s.PC (s.peek s.PC) (s.trace ++ [rd s s.PC])))

/-- From every state, whatever memory, registers, parameters and pending host calls, a step answers a next state, or
IllegalOpcode or UnsupportedInstruction carrying PC, the byte there and the opcode fetch as the one counted access; it never
refuses and never reaches the internal-consistency fault. -/
def Obligations.StepNeverRefusesOrPanics : Prop :=
  ∀ s : State, (∃ t, step s = .next t) ∨ step s = .fault (.illegalOpcode s.PC (s.peek s.PC) [rd s s.PC]) ∨
    step s = .fault (.unsupportedInstruction s.PC (s.peek s.PC) [rd s s.PC])

/-! ## Interrupts and reset (60_exceptions.md, 70_reset_and_hazards.md) -/

/-- The host call NMI() is a step that pushes PC (high, low) and the status as it was with Break 0, sets I, clears D on
CMOS65C02 only, and fetches PC from 0xFFFA, whatever I is; A, X, Y, C, Z, V, N and every other address are unchanged; its
counted accesses are the three pushes, and the two vector reads when P6 is set. The instruction counter is the model's free
value and is not stated (notes/assumptions/6.md). That a host call is a step that leaves the call list and begins an empty
trace is the model's choice (notes/assumptions/4.md, 5.md). -/
def Obligations.NmiTakesTheException : Prop :=
  ∀ (s : State) (calls : List HostCall), s.host = .nmi :: calls → ∃ t, step s = .next t ∧
    t.regs = { s with S := s.S - 3, I := true, D := if s.cfg.variant = Variant.cmos65C02 then false else s.D,
                      PC := word (s.peek 0xFFFB) (s.peek 0xFFFA), host := calls, instrs := t.instrs, free := t.free }.regs ∧
    (∀ a, t.peek a = if a = stackAddr s.S then hi8 s.PC else if a = stackAddr (s.S - 1) then lo8 s.PC
      else if a = stackAddr (s.S - 2) then s.pack false else s.peek a) ∧
    t.trace = [wr (stackAddr s.S) (hi8 s.PC), wr (stackAddr (s.S - 1)) (lo8 s.PC), wr (stackAddr (s.S - 2)) (s.pack false)] ++
      (if s.cfg.intVectorFetchCounted then [rd s 0xFFFA, rd s 0xFFFB] else [])

/-- With I clear the host call IRQ() is a step that pushes PC (high, low) and the status with Break 0, sets I, clears D on
CMOS65C02 only, and fetches PC from 0xFFFE; A, X, Y, C, Z, V, N and every other address are unchanged; its counted accesses
are the three pushes, and the two vector reads when P6 is set, and the cycle counter is that many more. What the counters
hold after IRQ() the spec leaves open: that the cycle counter counts the accesses is the model's reading of R13
(notes/assumptions/6.md). The instruction counter is the model's free value and is not stated (notes/assumptions/6.md). That
a host call is a step that leaves the call list and begins an empty trace is the model's choice (notes/assumptions/4.md,
5.md). -/
def Obligations.IrqIsTakenWhenInterruptsAreEnabled : Prop :=
  ∀ (s : State) (calls : List HostCall), s.host = .irq :: calls → s.I = false → ∃ t, step s = .next t ∧
    t.regs = { s with S := s.S - 3, I := true, D := if s.cfg.variant = Variant.cmos65C02 then false else s.D,
                      PC := word (s.peek 0xFFFF) (s.peek 0xFFFE), host := calls, instrs := t.instrs, free := t.free }.regs ∧
    (∀ a, t.peek a = if a = stackAddr s.S then hi8 s.PC else if a = stackAddr (s.S - 1) then lo8 s.PC
      else if a = stackAddr (s.S - 2) then s.pack false else s.peek a) ∧
    t.trace = [wr (stackAddr s.S) (hi8 s.PC), wr (stackAddr (s.S - 1)) (lo8 s.PC), wr (stackAddr (s.S - 2)) (s.pack false)] ++
      (if s.cfg.intVectorFetchCounted then [rd s 0xFFFE, rd s 0xFFFF] else []) ∧
    t.cycles = s.cycles + (if s.cfg.intVectorFetchCounted then 5 else 3)

/-- With I set the host call IRQ() is a step that changes no register, flag or byte of memory, makes no access and leaves no
pending bit. That a host call is a step that leaves the call list and begins an empty trace is the model's choice
(notes/assumptions/4.md, 5.md), and that the counters stay as they are is deduced (notes/assumptions/6.md). -/
def Obligations.MaskedIrqIsDropped : Prop :=
  ∀ (s : State) (calls : List HostCall), s.host = .irq :: calls → s.I = true →
    step s = .next { s with host := calls, trace := [] }

/-- The host call Reset() is a step, from every state and on both variants, after which A, X, Y and the six flags are 0, S is
0xFD, PC is the word at 0xFFFC, memory is unchanged and no access was counted. The two counters are free values and are not
stated (notes/assumptions/6.md). That a host call is a step that leaves the call list and begins an empty trace is the
model's choice (notes/assumptions/4.md, 5.md). -/
def Obligations.ResetOperationZeroesTheRegisters : Prop :=
  ∀ (s : State) (calls : List HostCall), s.host = .reset :: calls → ∃ t, step s = .next t ∧
    t.A = 0x00 ∧ t.X = 0x00 ∧ t.Y = 0x00 ∧ t.S = 0xFD ∧
    t.C = false ∧ t.Z = false ∧ t.I = false ∧ t.D = false ∧ t.V = false ∧ t.N = false ∧ t.getP = 0x20 ∧
    t.PC = word (s.peek 0xFFFD) (s.peek 0xFFFC) ∧ t.mem = s.mem ∧ t.trace = [] ∧ t.cfg = s.cfg ∧ t.host = calls

/-- State.reset has A, X, Y and the six flags 0, S = 0xFD, PC the word that its own memory holds at 0xFFFC, and the host sees
the status 0x20. The value of PC rests on the reading of unlisted memory (notes/assumptions/2.md), the variant on
notes/assumptions/1.md, both the model's choices. -/
def Obligations.ResetStateIsAsTheSpecSays : Prop :=
  let r := State.reset
  r.A = 0x00 ∧ r.X = 0x00 ∧ r.Y = 0x00 ∧ r.S = 0xFD ∧ r.C = false ∧ r.Z = false ∧ r.I = false ∧ r.D = false ∧ r.V = false ∧
  r.N = false ∧ r.getP = 0x20 ∧ r.PC = word (r.peek 0xFFFD) (r.peek 0xFFFC)

/-! ## The status byte and memory (10_state.md, 20_memory.md) -/

/-- Unpacking a packed status leaves the state as it was, for either Break bit; unpacking a byte and packing with its own bit
4 gives the byte with bit 5 set; whatever bits 4 and 5 of a byte are, it unpacks to the same state. -/
def Obligations.StatusByteRoundTrip : Prop :=
  ∀ (s : State) (b : Bool) (v : Byte),
    s.unpack (s.pack b) = s ∧
    (s.unpack v).pack (bitOf v 4) = v ||| 0x20 ∧
    s.unpack (v ||| 0x30) = s.unpack v

/-- After a write an address reads as written and every other address as before; after Push(v) the byte at 0x0100 + S is v, S
is one less modulo 256, and Pull() returns v and restores S. -/
def Obligations.MemoryReadsTheLastWrite : Prop :=
  ∀ (s : State) (a b : Word) (v : Byte),
    ((s.writeBus a v).peek b = if b = a then v else s.peek b) ∧
    ((s.push v).peek b = if b.toNat = 256 + s.S.toNat then v else s.peek b) ∧
    (s.push v).S.toNat = (s.S.toNat + 255) % 256 ∧
    (s.push v).pulled = v ∧ (s.push v).pull.S = s.S

/-! ## Rules of the whole machine -/

/-- With the default dummy addresses, every well-formed instruction but WAI, STP and ILLEGAL completes, and what it appends
to the trace is, access by access, the pattern the spec lists for its class and mode: opcode and operand fetches, pointer
reads, dummy reads, the data access, the write-back of a read-modify-write, pushes and pulls. -/
def Obligations.BusPatternOfEveryInstruction : Prop :=
  ∀ (i : Instr) (s : State), DefaultDummies s.cfg → i.wellFormed s.cfg = true → i.stops = false →
    ∃ t, exec i s = .next t ∧ t.trace = s.trace ++ busPattern i s

/-- Every well-formed instruction but WAI, STP and ILLEGAL completes with the cycle counter advanced by the number in the
cycle table for its class and mode, with one more for a page crossing in a read, a taken branch, a crossing branch and a
decimal ADC or SBC on CMOS65C02; the dummy addresses do not matter. -/
def Obligations.CycleCountOfEveryInstruction : Prop :=
  ∀ (i : Instr) (s : State), i.wellFormed s.cfg = true → i.stops = false →
    ∃ t, exec i s = .next t ∧ t.cycles = s.cycles + cycleCount i s

/-- Every instruction that completes only appends to the trace, and advances the cycle counter by the number of accesses
appended; a step that executes an instruction advances the instruction counter by one and the cycle counter by the length of
its trace. -/
def Obligations.CyclesCountTheAccesses : Prop :=
  (∀ (i : Instr) (s t : State), exec i s = .next t →
    ∃ l, t.trace = s.trace ++ l ∧ t.cycles = s.cycles + l.length ∧ t.instrs = s.instrs) ∧
  (∀ s t : State, s.host = [] → step s = .next t →
    t.cycles = s.cycles + t.trace.length ∧ t.instrs = s.instrs + 1)

/-- If an instruction completes, then with any other values of P3, P4, P5, P6 and P7 it completes too, with the same
registers, flags and memory contents and the same number of cycles; only the trace may differ. P4 and P5 range over the
model's plain-data address functions, uninterpreted ones among them (notes/assumptions/12.md, the model's choice). -/
def Obligations.TraceParametersLeaveTheResult : Prop :=
  ∀ (i : Instr) (s t : State) (p3 : RmwSecondAccess) (p4 : List ((Variant × DummyKind) × AddressFn))
    (p5 : AddressFn) (p6 p7 : Bool),
    exec i s = .next t →
    let cfg := { s.cfg with cmosRmwSecondAccess := p3, dummyAddresses := p4, cmosDecExtraAddress := p5,
                            intVectorFetchCounted := p6, stopOnBreak := p7 }
    ∃ u, exec i { s with cfg := cfg } = .next u ∧ u.regs = { t with cfg := cfg }.regs ∧ (∀ a, u.peek a = t.peek a) ∧
      u.cycles = t.cycles

/-- From every state whose memory is in canonical form (addresses rising and below 65536, no entry equal to what an unlisted
address reads as), a step that answers a next state leaves memory in canonical form and the configuration unchanged:
instruction or host call. -/
def Obligations.EveryStepKeepsTheInvariant : Prop :=
  ∀ s t : State, Inv s → step s = .next t → Inv t ∧ t.cfg = s.cfg

/-- The state after reset has its memory in canonical form. -/
def Obligations.InvariantHoldsAtReset : Prop :=
  Inv State.reset

/-- Whatever instruction completes, C, Z, I, D, V or N is unchanged unless the instruction is one of those the spec lists as
writing it: TSB and TRB do not write N, BIT immediate writes neither N nor V, BRK writes D on CMOS65C02 only. -/
def Obligations.FlagsChangeOnlyWhereListed : Prop :=
  ∀ (i : Instr) (s t : State), exec i s = .next t →
    (writesC i = false → t.C = s.C) ∧ (writesZ i = false → t.Z = s.Z) ∧ (writesI i = false → t.I = s.I) ∧
    (writesD s.cfg i = false → t.D = s.D) ∧ (writesV i = false → t.V = s.V) ∧ (writesN i = false → t.N = s.N)

/-- Whatever instruction completes, A, X, Y, S or memory is unchanged unless the instruction is one of those the spec lists
as writing it, and PC is the address after the instruction unless it is a control transfer; the configuration, the host
calls, the free values and the instruction counter are unchanged. -/
def Obligations.RegistersChangeOnlyWhereListed : Prop :=
  ∀ (i : Instr) (s t : State), exec i s = .next t →
    (writesA i = false → t.A = s.A) ∧ (writesX i = false → t.X = s.X) ∧ (writesY i = false → t.Y = s.Y) ∧
    (writesS i = false → t.S = s.S) ∧ (writesMemory i = false → t.mem = s.mem) ∧
    (transfersControl i = false → t.PC = s.PC + BitVec.ofNat 16 i.length) ∧
    t.cfg = s.cfg ∧ t.host = s.host ∧ t.free = s.free ∧ t.instrs = s.instrs

/-- If an instruction that is neither ADC nor SBC, nor one that packs or writes D, completes, then with D any other value it
completes with the same registers, flags and memory but for D, and the same number of cycles; with the default dummy
addresses it makes the same accesses too. -/
def Obligations.DecimalFlagMattersToArithmeticOnly : Prop :=
  ∀ (i : Instr) (s t : State) (b : Bool), touchesD i = false → exec i s = .next t →
    ∃ u, exec i { s with D := b } = .next u ∧ u.arch = { t with D := b }.arch ∧ u.cycles = t.cycles ∧
      (DefaultDummies s.cfg → u.trace = t.trace)

/-- With P7 set and the next opcode BRK, Run() stops with the state as it is, nothing fetched and nothing pushed; with P7
clear and the predicate not asking, it goes on with what the step answers; a single Step() is not affected by P7. -/
def Obligations.RunStopsAtBreakWhenAsked : Prop :=
  ∀ (ask : State → Bool) (n : Nat) (s : State),
    (s.cfg.stopOnBreak = true → s.peek s.PC = 0x00 → run ask (n + 1) s = .stopped s) ∧
    (ask s = true → run ask (n + 1) s = .stopped s) ∧
    (ask s = false → s.cfg.stopOnBreak = false ∨ s.peek s.PC ≠ 0x00 →
      (∀ t, stepInstr s = .next t → run ask (n + 1) s = run ask n t) ∧
      (∀ f, stepInstr s = .fault f → run ask (n + 1) s = .faulted f)) ∧
    (s.peek s.PC = 0x00 → ∃ t, stepInstr s = .next t ∧ t.PC = word (s.peek 0xFFFF) (s.peek 0xFFFE))

/-! ## What a step counts (48_bus_access_patterns.md R365, R368) -/

/-- A step that finds an illegal byte at PC makes the one access of its opcode fetch and stops with IllegalOpcode; on
CMOS65C02 WAI and STP do so with UnsupportedInstruction; whatever fault a step ends in, that is its one access. -/
def Obligations.FaultingStepMakesTheOpcodeFetch : Prop :=
  ∀ s : State, s.host = [] →
    (isIllegalByte s.cfg (s.peek s.PC) = true → step s = .fault (.illegalOpcode s.PC (s.peek s.PC) [rd s s.PC])) ∧
    (s.cfg.variant = .cmos65C02 → s.peek s.PC = 0xCB ∨ s.peek s.PC = 0xDB →
      step s = .fault (.unsupportedInstruction s.PC (s.peek s.PC) [rd s s.PC])) ∧
    (∀ f, step s = .fault f → f.accesses = [rd s s.PC])

/-- A step that executes an instruction makes as many counted accesses as the cycle table says for the instruction at PC, and
with the default dummy addresses they are its pattern; a step that faults makes the one of its row; a host operation makes
those of its row: Reset none, NMI and a taken IRQ three or with P6 five, a masked IRQ none. That a host call counts from an
empty trace is the model's choice (notes/assumptions/4.md, 5.md). -/
def Obligations.StepTakesTheCyclesOfTheTable : Prop :=
  (∀ s : State, s.host = [] →
    (∀ t, step s = .next t → t.endTransaction = cycleCount (fetchInstr s) s ∧
      (DefaultDummies s.cfg → t.trace = busPattern (fetchInstr s) s)) ∧
    (∀ f, step s = .fault f → f.cycles = cycleCount (fetchInstr s) s ∧ f.accesses = busPattern (fetchInstr s) s)) ∧
  (∀ (s : State) (c : HostCall) (calls : List HostCall), s.host = c :: calls → c ≠ .step →
    ∃ t, step s = .next t ∧ t.endTransaction = hostCycles c s)
end

