-- ==== Sys2Proof/Laws/Bits.lean ====
section
/-! SUPPORT. Words, bytes and addresses as numbers. -/

namespace Sys2Proof

@[simp] theorem word_toNat (h l : Byte) : (word h l).toNat = 256 * h.toNat + l.toNat := by
  have := l.isLt
  rw [word, BitVec.toNat_append, Nat.shiftLeft_eq, ← Nat.shiftLeft_eq, ← Nat.shiftLeft_add_eq_or_of_lt this, Nat.shiftLeft_eq]
  omega

@[simp] theorem lo8_toNat (w : Word) : (lo8 w).toNat = w.toNat % 256 := by
  simp [lo8, BitVec.extractLsb'_toNat]

@[simp] theorem hi8_toNat (w : Word) : (hi8 w).toNat = w.toNat / 256 := by
  have := w.isLt
  simp only [hi8, BitVec.extractLsb'_toNat, Nat.shiftRight_eq_div_pow]
  omega

/-- A word is its high and its low byte. -/
@[simp] theorem word_hi8_lo8 (w : Word) : word (hi8 w) (lo8 w) = w := by
  apply BitVec.eq_of_toNat_eq
  simp only [word_toNat, hi8_toNat, lo8_toNat]
  omega

@[simp] theorem hi8_word (h l : Byte) : hi8 (word h l) = h := by
  apply BitVec.eq_of_toNat_eq
  have := l.isLt
  simp only [word_toNat, hi8_toNat]
  omega

@[simp] theorem lo8_word (h l : Byte) : lo8 (word h l) = l := by
  apply BitVec.eq_of_toNat_eq
  have := l.isLt
  simp only [word_toNat, lo8_toNat]
  omega

theorem zeroPage_toNat (b : Byte) : (zeroPage b).toNat = b.toNat := by simp [zeroPage]

theorem stackAddr_toNat (b : Byte) : (stackAddr b).toNat = 256 + b.toNat := by simp [stackAddr]

/-- Different stack pointers are different addresses. -/
@[simp] theorem stackAddr_inj {a b : Byte} : stackAddr a = stackAddr b ↔ a = b := by
  simp [BitVec.toNat_eq, stackAddr_toNat]

/-- The extended displacement as a signed number. -/
theorem sext16_toInt (b : Byte) : (sext16 b).toInt = b.toInt := by
  rw [sext16, BitVec.toInt_signExtend_of_le (by omega)]

/-- A branch target as the exact signed sum, modulo 65536. -/
theorem add_sext16 (p : Word) (n : Nat) (b : Byte) :
    p + BitVec.ofNat 16 n + sext16 b = BitVec.ofInt 16 (p.toNat + n + b.toInt) := by
  rw [← sext16_toInt, BitVec.ofInt_add, BitVec.ofInt_add, BitVec.ofInt_toInt]
  simp

end Sys2Proof
end

