-- ==== Sys2Proof/Laws/State.lean ====
section
/-! SUPPORT. The fields of a state after each update: one lemma per field and update, so that no proof unfolds a record. -/

namespace Sys2Proof.Machine

variable (s : State)

@[simp] theorem State.record_A (a : Word) (v : Byte) (d : BusDir) : (s.record a v d).A = s.A := rfl
@[simp] theorem State.record_X (a : Word) (v : Byte) (d : BusDir) : (s.record a v d).X = s.X := rfl
@[simp] theorem State.record_Y (a : Word) (v : Byte) (d : BusDir) : (s.record a v d).Y = s.Y := rfl
@[simp] theorem State.record_S (a : Word) (v : Byte) (d : BusDir) : (s.record a v d).S = s.S := rfl
@[simp] theorem State.record_PC (a : Word) (v : Byte) (d : BusDir) : (s.record a v d).PC = s.PC := rfl
@[simp] theorem State.record_C (a : Word) (v : Byte) (d : BusDir) : (s.record a v d).C = s.C := rfl
@[simp] theorem State.record_Z (a : Word) (v : Byte) (d : BusDir) : (s.record a v d).Z = s.Z := rfl
@[simp] theorem State.record_I (a : Word) (v : Byte) (d : BusDir) : (s.record a v d).I = s.I := rfl
@[simp] theorem State.record_D (a : Word) (v : Byte) (d : BusDir) : (s.record a v d).D = s.D := rfl
@[simp] theorem State.record_V (a : Word) (v : Byte) (d : BusDir) : (s.record a v d).V = s.V := rfl
@[simp] theorem State.record_N (a : Word) (v : Byte) (d : BusDir) : (s.record a v d).N = s.N := rfl
@[simp] theorem State.record_mem (a : Word) (v : Byte) (d : BusDir) : (s.record a v d).mem = s.mem := rfl
@[simp] theorem State.record_trace (a : Word) (v : Byte) (d : BusDir) : (s.record a v d).trace = s.trace ++ [⟨a, v, d⟩] := rfl
@[simp] theorem State.record_cycles (a : Word) (v : Byte) (d : BusDir) : (s.record a v d).cycles = s.cycles + 1 := rfl
@[simp] theorem State.record_instrs (a : Word) (v : Byte) (d : BusDir) : (s.record a v d).instrs = s.instrs := rfl
@[simp] theorem State.record_host (a : Word) (v : Byte) (d : BusDir) : (s.record a v d).host = s.host := rfl
@[simp] theorem State.record_free (a : Word) (v : Byte) (d : BusDir) : (s.record a v d).free = s.free := rfl
@[simp] theorem State.record_cfg (a : Word) (v : Byte) (d : BusDir) : (s.record a v d).cfg = s.cfg := rfl

@[simp] theorem State.poke_A (a : Word) (v : Byte) : (s.poke a v).A = s.A := rfl
@[simp] theorem State.poke_X (a : Word) (v : Byte) : (s.poke a v).X = s.X := rfl
@[simp] theorem State.poke_Y (a : Word) (v : Byte) : (s.poke a v).Y = s.Y := rfl
@[simp] theorem State.poke_S (a : Word) (v : Byte) : (s.poke a v).S = s.S := rfl
@[simp] theorem State.poke_PC (a : Word) (v : Byte) : (s.poke a v).PC = s.PC := rfl
@[simp] theorem State.poke_C (a : Word) (v : Byte) : (s.poke a v).C = s.C := rfl
@[simp] theorem State.poke_Z (a : Word) (v : Byte) : (s.poke a v).Z = s.Z := rfl
@[simp] theorem State.poke_I (a : Word) (v : Byte) : (s.poke a v).I = s.I := rfl
@[simp] theorem State.poke_D (a : Word) (v : Byte) : (s.poke a v).D = s.D := rfl
@[simp] theorem State.poke_V (a : Word) (v : Byte) : (s.poke a v).V = s.V := rfl
@[simp] theorem State.poke_N (a : Word) (v : Byte) : (s.poke a v).N = s.N := rfl
@[simp] theorem State.poke_mem (a : Word) (v : Byte) : (s.poke a v).mem = memWrite s.mem a.toNat v := rfl
@[simp] theorem State.poke_trace (a : Word) (v : Byte) : (s.poke a v).trace = s.trace := rfl
@[simp] theorem State.poke_cycles (a : Word) (v : Byte) : (s.poke a v).cycles = s.cycles := rfl
@[simp] theorem State.poke_instrs (a : Word) (v : Byte) : (s.poke a v).instrs = s.instrs := rfl
@[simp] theorem State.poke_host (a : Word) (v : Byte) : (s.poke a v).host = s.host := rfl
@[simp] theorem State.poke_free (a : Word) (v : Byte) : (s.poke a v).free = s.free := rfl
@[simp] theorem State.poke_cfg (a : Word) (v : Byte) : (s.poke a v).cfg = s.cfg := rfl

@[simp] theorem State.readBus_A (a : Word) : (s.readBus a).A = s.A := rfl
@[simp] theorem State.readBus_X (a : Word) : (s.readBus a).X = s.X := rfl
@[simp] theorem State.readBus_Y (a : Word) : (s.readBus a).Y = s.Y := rfl
@[simp] theorem State.readBus_S (a : Word) : (s.readBus a).S = s.S := rfl
@[simp] theorem State.readBus_PC (a : Word) : (s.readBus a).PC = s.PC := rfl
@[simp] theorem State.readBus_C (a : Word) : (s.readBus a).C = s.C := rfl
@[simp] theorem State.readBus_Z (a : Word) : (s.readBus a).Z = s.Z := rfl
@[simp] theorem State.readBus_I (a : Word) : (s.readBus a).I = s.I := rfl
@[simp] theorem State.readBus_D (a : Word) : (s.readBus a).D = s.D := rfl
@[simp] theorem State.readBus_V (a : Word) : (s.readBus a).V = s.V := rfl
@[simp] theorem State.readBus_N (a : Word) : (s.readBus a).N = s.N := rfl
@[simp] theorem State.readBus_mem (a : Word) : (s.readBus a).mem = s.mem := rfl
@[simp] theorem State.readBus_trace (a : Word) : (s.readBus a).trace = s.trace ++ [rd s a] := rfl
@[simp] theorem State.readBus_cycles (a : Word) : (s.readBus a).cycles = s.cycles + 1 := rfl
@[simp] theorem State.readBus_instrs (a : Word) : (s.readBus a).instrs = s.instrs := rfl
@[simp] theorem State.readBus_host (a : Word) : (s.readBus a).host = s.host := rfl
@[simp] theorem State.readBus_free (a : Word) : (s.readBus a).free = s.free := rfl
@[simp] theorem State.readBus_cfg (a : Word) : (s.readBus a).cfg = s.cfg := rfl

@[simp] theorem State.writeBus_A (a : Word) (v : Byte) : (s.writeBus a v).A = s.A := rfl
@[simp] theorem State.writeBus_X (a : Word) (v : Byte) : (s.writeBus a v).X = s.X := rfl
@[simp] theorem State.writeBus_Y (a : Word) (v : Byte) : (s.writeBus a v).Y = s.Y := rfl
@[simp] theorem State.writeBus_S (a : Word) (v : Byte) : (s.writeBus a v).S = s.S := rfl
@[simp] theorem State.writeBus_PC (a : Word) (v : Byte) : (s.writeBus a v).PC = s.PC := rfl
@[simp] theorem State.writeBus_C (a : Word) (v : Byte) : (s.writeBus a v).C = s.C := rfl
@[simp] theorem State.writeBus_Z (a : Word) (v : Byte) : (s.writeBus a v).Z = s.Z := rfl
@[simp] theorem State.writeBus_I (a : Word) (v : Byte) : (s.writeBus a v).I = s.I := rfl
@[simp] theorem State.writeBus_D (a : Word) (v : Byte) : (s.writeBus a v).D = s.D := rfl
@[simp] theorem State.writeBus_V (a : Word) (v : Byte) : (s.writeBus a v).V = s.V := rfl
@[simp] theorem State.writeBus_N (a : Word) (v : Byte) : (s.writeBus a v).N = s.N := rfl
@[simp] theorem State.writeBus_mem (a : Word) (v : Byte) : (s.writeBus a v).mem = memWrite s.mem a.toNat v := rfl
@[simp] theorem State.writeBus_trace (a : Word) (v : Byte) : (s.writeBus a v).trace = s.trace ++ [wr a v] := rfl
@[simp] theorem State.writeBus_cycles (a : Word) (v : Byte) : (s.writeBus a v).cycles = s.cycles + 1 := rfl
@[simp] theorem State.writeBus_instrs (a : Word) (v : Byte) : (s.writeBus a v).instrs = s.instrs := rfl
@[simp] theorem State.writeBus_host (a : Word) (v : Byte) : (s.writeBus a v).host = s.host := rfl
@[simp] theorem State.writeBus_free (a : Word) (v : Byte) : (s.writeBus a v).free = s.free := rfl
@[simp] theorem State.writeBus_cfg (a : Word) (v : Byte) : (s.writeBus a v).cfg = s.cfg := rfl

@[simp] theorem State.fetch_A : (s.fetch).A = s.A := rfl
@[simp] theorem State.fetch_X : (s.fetch).X = s.X := rfl
@[simp] theorem State.fetch_Y : (s.fetch).Y = s.Y := rfl
@[simp] theorem State.fetch_S : (s.fetch).S = s.S := rfl
@[simp] theorem State.fetch_PC : (s.fetch).PC = s.PC + 1 := rfl
@[simp] theorem State.fetch_C : (s.fetch).C = s.C := rfl
@[simp] theorem State.fetch_Z : (s.fetch).Z = s.Z := rfl
@[simp] theorem State.fetch_I : (s.fetch).I = s.I := rfl
@[simp] theorem State.fetch_D : (s.fetch).D = s.D := rfl
@[simp] theorem State.fetch_V : (s.fetch).V = s.V := rfl
@[simp] theorem State.fetch_N : (s.fetch).N = s.N := rfl
@[simp] theorem State.fetch_mem : (s.fetch).mem = s.mem := rfl
@[simp] theorem State.fetch_trace : (s.fetch).trace = s.trace ++ [rd s s.PC] := rfl
@[simp] theorem State.fetch_cycles : (s.fetch).cycles = s.cycles + 1 := rfl
@[simp] theorem State.fetch_instrs : (s.fetch).instrs = s.instrs := rfl
@[simp] theorem State.fetch_host : (s.fetch).host = s.host := rfl
@[simp] theorem State.fetch_free : (s.fetch).free = s.free := rfl
@[simp] theorem State.fetch_cfg : (s.fetch).cfg = s.cfg := rfl

@[simp] theorem State.beginTransaction_A : (s.beginTransaction).A = s.A := rfl
@[simp] theorem State.beginTransaction_X : (s.beginTransaction).X = s.X := rfl
@[simp] theorem State.beginTransaction_Y : (s.beginTransaction).Y = s.Y := rfl
@[simp] theorem State.beginTransaction_S : (s.beginTransaction).S = s.S := rfl
@[simp] theorem State.beginTransaction_PC : (s.beginTransaction).PC = s.PC := rfl
@[simp] theorem State.beginTransaction_C : (s.beginTransaction).C = s.C := rfl
@[simp] theorem State.beginTransaction_Z : (s.beginTransaction).Z = s.Z := rfl
@[simp] theorem State.beginTransaction_I : (s.beginTransaction).I = s.I := rfl
@[simp] theorem State.beginTransaction_D : (s.beginTransaction).D = s.D := rfl
@[simp] theorem State.beginTransaction_V : (s.beginTransaction).V = s.V := rfl
@[simp] theorem State.beginTransaction_N : (s.beginTransaction).N = s.N := rfl
@[simp] theorem State.beginTransaction_mem : (s.beginTransaction).mem = s.mem := rfl
@[simp] theorem State.beginTransaction_trace : (s.beginTransaction).trace = [] := rfl
@[simp] theorem State.beginTransaction_cycles : (s.beginTransaction).cycles = s.cycles := rfl
@[simp] theorem State.beginTransaction_instrs : (s.beginTransaction).instrs = s.instrs := rfl
@[simp] theorem State.beginTransaction_host : (s.beginTransaction).host = s.host := rfl
@[simp] theorem State.beginTransaction_free : (s.beginTransaction).free = s.free := rfl
@[simp] theorem State.beginTransaction_cfg : (s.beginTransaction).cfg = s.cfg := rfl

@[simp] theorem State.dummy_A (k : DummyKind) (a : Word) : (s.dummy k a).A = s.A := rfl
@[simp] theorem State.dummy_X (k : DummyKind) (a : Word) : (s.dummy k a).X = s.X := rfl
@[simp] theorem State.dummy_Y (k : DummyKind) (a : Word) : (s.dummy k a).Y = s.Y := rfl
@[simp] theorem State.dummy_S (k : DummyKind) (a : Word) : (s.dummy k a).S = s.S := rfl
@[simp] theorem State.dummy_PC (k : DummyKind) (a : Word) : (s.dummy k a).PC = s.PC := rfl
@[simp] theorem State.dummy_C (k : DummyKind) (a : Word) : (s.dummy k a).C = s.C := rfl
@[simp] theorem State.dummy_Z (k : DummyKind) (a : Word) : (s.dummy k a).Z = s.Z := rfl
@[simp] theorem State.dummy_I (k : DummyKind) (a : Word) : (s.dummy k a).I = s.I := rfl
@[simp] theorem State.dummy_D (k : DummyKind) (a : Word) : (s.dummy k a).D = s.D := rfl
@[simp] theorem State.dummy_V (k : DummyKind) (a : Word) : (s.dummy k a).V = s.V := rfl
@[simp] theorem State.dummy_N (k : DummyKind) (a : Word) : (s.dummy k a).N = s.N := rfl
@[simp] theorem State.dummy_mem (k : DummyKind) (a : Word) : (s.dummy k a).mem = s.mem := rfl
@[simp] theorem State.dummy_cycles (k : DummyKind) (a : Word) : (s.dummy k a).cycles = s.cycles + 1 := rfl
@[simp] theorem State.dummy_instrs (k : DummyKind) (a : Word) : (s.dummy k a).instrs = s.instrs := rfl
@[simp] theorem State.dummy_host (k : DummyKind) (a : Word) : (s.dummy k a).host = s.host := rfl
@[simp] theorem State.dummy_free (k : DummyKind) (a : Word) : (s.dummy k a).free = s.free := rfl
@[simp] theorem State.dummy_cfg (k : DummyKind) (a : Word) : (s.dummy k a).cfg = s.cfg := rfl

@[simp] theorem State.push_A (v : Byte) : (s.push v).A = s.A := rfl
@[simp] theorem State.push_X (v : Byte) : (s.push v).X = s.X := rfl
@[simp] theorem State.push_Y (v : Byte) : (s.push v).Y = s.Y := rfl
@[simp] theorem State.push_S (v : Byte) : (s.push v).S = s.S - 1 := rfl
@[simp] theorem State.push_PC (v : Byte) : (s.push v).PC = s.PC := rfl
@[simp] theorem State.push_C (v : Byte) : (s.push v).C = s.C := rfl
@[simp] theorem State.push_Z (v : Byte) : (s.push v).Z = s.Z := rfl
@[simp] theorem State.push_I (v : Byte) : (s.push v).I = s.I := rfl
@[simp] theorem State.push_D (v : Byte) : (s.push v).D = s.D := rfl
@[simp] theorem State.push_V (v : Byte) : (s.push v).V = s.V := rfl
@[simp] theorem State.push_N (v : Byte) : (s.push v).N = s.N := rfl
@[simp] theorem State.push_mem (v : Byte) : (s.push v).mem = memWrite s.mem (stackAddr s.S).toNat v := rfl
@[simp] theorem State.push_trace (v : Byte) : (s.push v).trace = s.trace ++ [wr (stackAddr s.S) v] := rfl
@[simp] theorem State.push_cycles (v : Byte) : (s.push v).cycles = s.cycles + 1 := rfl
@[simp] theorem State.push_instrs (v : Byte) : (s.push v).instrs = s.instrs := rfl
@[simp] theorem State.push_host (v : Byte) : (s.push v).host = s.host := rfl
@[simp] theorem State.push_free (v : Byte) : (s.push v).free = s.free := rfl
@[simp] theorem State.push_cfg (v : Byte) : (s.push v).cfg = s.cfg := rfl

@[simp] theorem State.pull_A : (s.pull).A = s.A := rfl
@[simp] theorem State.pull_X : (s.pull).X = s.X := rfl
@[simp] theorem State.pull_Y : (s.pull).Y = s.Y := rfl
@[simp] theorem State.pull_S : (s.pull).S = s.S + 1 := rfl
@[simp] theorem State.pull_PC : (s.pull).PC = s.PC := rfl
@[simp] theorem State.pull_C : (s.pull).C = s.C := rfl
@[simp] theorem State.pull_Z : (s.pull).Z = s.Z := rfl
@[simp] theorem State.pull_I : (s.pull).I = s.I := rfl
@[simp] theorem State.pull_D : (s.pull).D = s.D := rfl
@[simp] theorem State.pull_V : (s.pull).V = s.V := rfl
@[simp] theorem State.pull_N : (s.pull).N = s.N := rfl
@[simp] theorem State.pull_mem : (s.pull).mem = s.mem := rfl
@[simp] theorem State.pull_trace : (s.pull).trace = s.trace ++ [rd s (stackAddr (s.S + 1))] := rfl
@[simp] theorem State.pull_cycles : (s.pull).cycles = s.cycles + 1 := rfl
@[simp] theorem State.pull_instrs : (s.pull).instrs = s.instrs := rfl
@[simp] theorem State.pull_host : (s.pull).host = s.host := rfl
@[simp] theorem State.pull_free : (s.pull).free = s.free := rfl
@[simp] theorem State.pull_cfg : (s.pull).cfg = s.cfg := rfl

@[simp] theorem State.unpack_A (v : Byte) : (s.unpack v).A = s.A := rfl
@[simp] theorem State.unpack_X (v : Byte) : (s.unpack v).X = s.X := rfl
@[simp] theorem State.unpack_Y (v : Byte) : (s.unpack v).Y = s.Y := rfl
@[simp] theorem State.unpack_S (v : Byte) : (s.unpack v).S = s.S := rfl
@[simp] theorem State.unpack_PC (v : Byte) : (s.unpack v).PC = s.PC := rfl
@[simp] theorem State.unpack_C (v : Byte) : (s.unpack v).C = bitOf v 0 := rfl
@[simp] theorem State.unpack_Z (v : Byte) : (s.unpack v).Z = bitOf v 1 := rfl
@[simp] theorem State.unpack_I (v : Byte) : (s.unpack v).I = bitOf v 2 := rfl
@[simp] theorem State.unpack_D (v : Byte) : (s.unpack v).D = bitOf v 3 := rfl
@[simp] theorem State.unpack_V (v : Byte) : (s.unpack v).V = bitOf v 6 := rfl
@[simp] theorem State.unpack_N (v : Byte) : (s.unpack v).N = bitOf v 7 := rfl
@[simp] theorem State.unpack_mem (v : Byte) : (s.unpack v).mem = s.mem := rfl
@[simp] theorem State.unpack_trace (v : Byte) : (s.unpack v).trace = s.trace := rfl
@[simp] theorem State.unpack_cycles (v : Byte) : (s.unpack v).cycles = s.cycles := rfl
@[simp] theorem State.unpack_instrs (v : Byte) : (s.unpack v).instrs = s.instrs := rfl
@[simp] theorem State.unpack_host (v : Byte) : (s.unpack v).host = s.host := rfl
@[simp] theorem State.unpack_free (v : Byte) : (s.unpack v).free = s.free := rfl
@[simp] theorem State.unpack_cfg (v : Byte) : (s.unpack v).cfg = s.cfg := rfl

@[simp] theorem State.enterFlags_A : (s.enterFlags).A = s.A := rfl
@[simp] theorem State.enterFlags_X : (s.enterFlags).X = s.X := rfl
@[simp] theorem State.enterFlags_Y : (s.enterFlags).Y = s.Y := rfl
@[simp] theorem State.enterFlags_S : (s.enterFlags).S = s.S := rfl
@[simp] theorem State.enterFlags_PC : (s.enterFlags).PC = s.PC := rfl
@[simp] theorem State.enterFlags_C : (s.enterFlags).C = s.C := rfl
@[simp] theorem State.enterFlags_Z : (s.enterFlags).Z = s.Z := rfl
@[simp] theorem State.enterFlags_I : (s.enterFlags).I = true := rfl
@[simp] theorem State.enterFlags_V : (s.enterFlags).V = s.V := rfl
@[simp] theorem State.enterFlags_N : (s.enterFlags).N = s.N := rfl
@[simp] theorem State.enterFlags_mem : (s.enterFlags).mem = s.mem := rfl
@[simp] theorem State.enterFlags_trace : (s.enterFlags).trace = s.trace := rfl
@[simp] theorem State.enterFlags_cycles : (s.enterFlags).cycles = s.cycles := rfl
@[simp] theorem State.enterFlags_instrs : (s.enterFlags).instrs = s.instrs := rfl
@[simp] theorem State.enterFlags_host : (s.enterFlags).host = s.host := rfl
@[simp] theorem State.enterFlags_free : (s.enterFlags).free = s.free := rfl
@[simp] theorem State.enterFlags_cfg : (s.enterFlags).cfg = s.cfg := rfl

@[simp] theorem State.setNZ_A (v : Byte) : (s.setNZ v).A = s.A := rfl
@[simp] theorem State.setNZ_X (v : Byte) : (s.setNZ v).X = s.X := rfl
@[simp] theorem State.setNZ_Y (v : Byte) : (s.setNZ v).Y = s.Y := rfl
@[simp] theorem State.setNZ_S (v : Byte) : (s.setNZ v).S = s.S := rfl
@[simp] theorem State.setNZ_PC (v : Byte) : (s.setNZ v).PC = s.PC := rfl
@[simp] theorem State.setNZ_C (v : Byte) : (s.setNZ v).C = s.C := rfl
@[simp] theorem State.setNZ_Z (v : Byte) : (s.setNZ v).Z = (v == 0) := rfl
@[simp] theorem State.setNZ_I (v : Byte) : (s.setNZ v).I = s.I := rfl
@[simp] theorem State.setNZ_D (v : Byte) : (s.setNZ v).D = s.D := rfl
@[simp] theorem State.setNZ_V (v : Byte) : (s.setNZ v).V = s.V := rfl
@[simp] theorem State.setNZ_N (v : Byte) : (s.setNZ v).N = bitOf v 7 := rfl
@[simp] theorem State.setNZ_mem (v : Byte) : (s.setNZ v).mem = s.mem := rfl
@[simp] theorem State.setNZ_trace (v : Byte) : (s.setNZ v).trace = s.trace := rfl
@[simp] theorem State.setNZ_cycles (v : Byte) : (s.setNZ v).cycles = s.cycles := rfl
@[simp] theorem State.setNZ_instrs (v : Byte) : (s.setNZ v).instrs = s.instrs := rfl
@[simp] theorem State.setNZ_host (v : Byte) : (s.setNZ v).host = s.host := rfl
@[simp] theorem State.setNZ_free (v : Byte) : (s.setNZ v).free = s.free := rfl
@[simp] theorem State.setNZ_cfg (v : Byte) : (s.setNZ v).cfg = s.cfg := rfl

@[simp] theorem State.compare_A (r m : Byte) : (s.compare r m).A = s.A := rfl
@[simp] theorem State.compare_X (r m : Byte) : (s.compare r m).X = s.X := rfl
@[simp] theorem State.compare_Y (r m : Byte) : (s.compare r m).Y = s.Y := rfl
@[simp] theorem State.compare_S (r m : Byte) : (s.compare r m).S = s.S := rfl
@[simp] theorem State.compare_PC (r m : Byte) : (s.compare r m).PC = s.PC := rfl
@[simp] theorem State.compare_C (r m : Byte) : (s.compare r m).C = decide (m.toNat ≤ r.toNat) := rfl
@[simp] theorem State.compare_Z (r m : Byte) : (s.compare r m).Z = (r == m) := rfl
@[simp] theorem State.compare_I (r m : Byte) : (s.compare r m).I = s.I := rfl
@[simp] theorem State.compare_D (r m : Byte) : (s.compare r m).D = s.D := rfl
@[simp] theorem State.compare_V (r m : Byte) : (s.compare r m).V = s.V := rfl
@[simp] theorem State.compare_N (r m : Byte) : (s.compare r m).N = bitOf (r - m) 7 := rfl
@[simp] theorem State.compare_mem (r m : Byte) : (s.compare r m).mem = s.mem := rfl
@[simp] theorem State.compare_trace (r m : Byte) : (s.compare r m).trace = s.trace := rfl
@[simp] theorem State.compare_cycles (r m : Byte) : (s.compare r m).cycles = s.cycles := rfl
@[simp] theorem State.compare_instrs (r m : Byte) : (s.compare r m).instrs = s.instrs := rfl
@[simp] theorem State.compare_host (r m : Byte) : (s.compare r m).host = s.host := rfl
@[simp] theorem State.compare_free (r m : Byte) : (s.compare r m).free = s.free := rfl
@[simp] theorem State.compare_cfg (r m : Byte) : (s.compare r m).cfg = s.cfg := rfl

@[simp] theorem State.setAlu_A (r : AluResult) : (s.setAlu r).A = r.A := rfl
@[simp] theorem State.setAlu_X (r : AluResult) : (s.setAlu r).X = s.X := rfl
@[simp] theorem State.setAlu_Y (r : AluResult) : (s.setAlu r).Y = s.Y := rfl
@[simp] theorem State.setAlu_S (r : AluResult) : (s.setAlu r).S = s.S := rfl
@[simp] theorem State.setAlu_PC (r : AluResult) : (s.setAlu r).PC = s.PC := rfl
@[simp] theorem State.setAlu_C (r : AluResult) : (s.setAlu r).C = r.C := rfl
@[simp] theorem State.setAlu_Z (r : AluResult) : (s.setAlu r).Z = r.Z := rfl
@[simp] theorem State.setAlu_I (r : AluResult) : (s.setAlu r).I = s.I := rfl
@[simp] theorem State.setAlu_D (r : AluResult) : (s.setAlu r).D = s.D := rfl
@[simp] theorem State.setAlu_V (r : AluResult) : (s.setAlu r).V = r.V := rfl
@[simp] theorem State.setAlu_N (r : AluResult) : (s.setAlu r).N = r.N := rfl
@[simp] theorem State.setAlu_mem (r : AluResult) : (s.setAlu r).mem = s.mem := rfl
@[simp] theorem State.setAlu_trace (r : AluResult) : (s.setAlu r).trace = s.trace := rfl
@[simp] theorem State.setAlu_cycles (r : AluResult) : (s.setAlu r).cycles = s.cycles := rfl
@[simp] theorem State.setAlu_instrs (r : AluResult) : (s.setAlu r).instrs = s.instrs := rfl
@[simp] theorem State.setAlu_host (r : AluResult) : (s.setAlu r).host = s.host := rfl
@[simp] theorem State.setAlu_free (r : AluResult) : (s.setAlu r).free = s.free := rfl
@[simp] theorem State.setAlu_cfg (r : AluResult) : (s.setAlu r).cfg = s.cfg := rfl

@[simp] theorem State.setZAnd_A (m : Byte) : (s.setZAnd m).A = s.A := rfl
@[simp] theorem State.setZAnd_X (m : Byte) : (s.setZAnd m).X = s.X := rfl
@[simp] theorem State.setZAnd_Y (m : Byte) : (s.setZAnd m).Y = s.Y := rfl
@[simp] theorem State.setZAnd_S (m : Byte) : (s.setZAnd m).S = s.S := rfl
@[simp] theorem State.setZAnd_PC (m : Byte) : (s.setZAnd m).PC = s.PC := rfl
@[simp] theorem State.setZAnd_C (m : Byte) : (s.setZAnd m).C = s.C := rfl
@[simp] theorem State.setZAnd_Z (m : Byte) : (s.setZAnd m).Z = ((s.A &&& m) == 0) := rfl
@[simp] theorem State.setZAnd_I (m : Byte) : (s.setZAnd m).I = s.I := rfl
@[simp] theorem State.setZAnd_D (m : Byte) : (s.setZAnd m).D = s.D := rfl
@[simp] theorem State.setZAnd_V (m : Byte) : (s.setZAnd m).V = s.V := rfl
@[simp] theorem State.setZAnd_N (m : Byte) : (s.setZAnd m).N = s.N := rfl
@[simp] theorem State.setZAnd_mem (m : Byte) : (s.setZAnd m).mem = s.mem := rfl
@[simp] theorem State.setZAnd_trace (m : Byte) : (s.setZAnd m).trace = s.trace := rfl
@[simp] theorem State.setZAnd_cycles (m : Byte) : (s.setZAnd m).cycles = s.cycles := rfl
@[simp] theorem State.setZAnd_instrs (m : Byte) : (s.setZAnd m).instrs = s.instrs := rfl
@[simp] theorem State.setZAnd_host (m : Byte) : (s.setZAnd m).host = s.host := rfl
@[simp] theorem State.setZAnd_free (m : Byte) : (s.setZAnd m).free = s.free := rfl
@[simp] theorem State.setZAnd_cfg (m : Byte) : (s.setZAnd m).cfg = s.cfg := rfl

@[simp] theorem State.retire_A : (s.retire).A = s.A := rfl
@[simp] theorem State.retire_X : (s.retire).X = s.X := rfl
@[simp] theorem State.retire_Y : (s.retire).Y = s.Y := rfl
@[simp] theorem State.retire_S : (s.retire).S = s.S := rfl
@[simp] theorem State.retire_PC : (s.retire).PC = s.PC := rfl
@[simp] theorem State.retire_C : (s.retire).C = s.C := rfl
@[simp] theorem State.retire_Z : (s.retire).Z = s.Z := rfl
@[simp] theorem State.retire_I : (s.retire).I = s.I := rfl
@[simp] theorem State.retire_D : (s.retire).D = s.D := rfl
@[simp] theorem State.retire_V : (s.retire).V = s.V := rfl
@[simp] theorem State.retire_N : (s.retire).N = s.N := rfl
@[simp] theorem State.retire_mem : (s.retire).mem = s.mem := rfl
@[simp] theorem State.retire_trace : (s.retire).trace = s.trace := rfl
@[simp] theorem State.retire_cycles : (s.retire).cycles = s.cycles := rfl
@[simp] theorem State.retire_instrs : (s.retire).instrs = s.instrs + 1 := rfl
@[simp] theorem State.retire_host : (s.retire).host = s.host := rfl
@[simp] theorem State.retire_free : (s.retire).free = s.free := rfl
@[simp] theorem State.retire_cfg : (s.retire).cfg = s.cfg := rfl

@[simp] theorem State.freeInstrs_A : (s.freeInstrs).A = s.A := rfl
@[simp] theorem State.freeInstrs_X : (s.freeInstrs).X = s.X := rfl
@[simp] theorem State.freeInstrs_Y : (s.freeInstrs).Y = s.Y := rfl
@[simp] theorem State.freeInstrs_S : (s.freeInstrs).S = s.S := rfl
@[simp] theorem State.freeInstrs_PC : (s.freeInstrs).PC = s.PC := rfl
@[simp] theorem State.freeInstrs_C : (s.freeInstrs).C = s.C := rfl
@[simp] theorem State.freeInstrs_Z : (s.freeInstrs).Z = s.Z := rfl
@[simp] theorem State.freeInstrs_I : (s.freeInstrs).I = s.I := rfl
@[simp] theorem State.freeInstrs_D : (s.freeInstrs).D = s.D := rfl
@[simp] theorem State.freeInstrs_V : (s.freeInstrs).V = s.V := rfl
@[simp] theorem State.freeInstrs_N : (s.freeInstrs).N = s.N := rfl
@[simp] theorem State.freeInstrs_mem : (s.freeInstrs).mem = s.mem := rfl
@[simp] theorem State.freeInstrs_trace : (s.freeInstrs).trace = s.trace := rfl
@[simp] theorem State.freeInstrs_cycles : (s.freeInstrs).cycles = s.cycles := rfl
@[simp] theorem State.freeInstrs_instrs : (s.freeInstrs).instrs = Config.freeCounter s.free := rfl
@[simp] theorem State.freeInstrs_host : (s.freeInstrs).host = s.host := rfl
@[simp] theorem State.freeInstrs_free : (s.freeInstrs).free = s.free + 1 := rfl
@[simp] theorem State.freeInstrs_cfg : (s.freeInstrs).cfg = s.cfg := rfl

@[simp] theorem State.freeCycles_A : (s.freeCycles).A = s.A := rfl
@[simp] theorem State.freeCycles_X : (s.freeCycles).X = s.X := rfl
@[simp] theorem State.freeCycles_Y : (s.freeCycles).Y = s.Y := rfl
@[simp] theorem State.freeCycles_S : (s.freeCycles).S = s.S := rfl
@[simp] theorem State.freeCycles_PC : (s.freeCycles).PC = s.PC := rfl
@[simp] theorem State.freeCycles_C : (s.freeCycles).C = s.C := rfl
@[simp] theorem State.freeCycles_Z : (s.freeCycles).Z = s.Z := rfl
@[simp] theorem State.freeCycles_I : (s.freeCycles).I = s.I := rfl
@[simp] theorem State.freeCycles_D : (s.freeCycles).D = s.D := rfl
@[simp] theorem State.freeCycles_V : (s.freeCycles).V = s.V := rfl
@[simp] theorem State.freeCycles_N : (s.freeCycles).N = s.N := rfl
@[simp] theorem State.freeCycles_mem : (s.freeCycles).mem = s.mem := rfl
@[simp] theorem State.freeCycles_trace : (s.freeCycles).trace = s.trace := rfl
@[simp] theorem State.freeCycles_cycles : (s.freeCycles).cycles = Config.freeCounter s.free := rfl
@[simp] theorem State.freeCycles_instrs : (s.freeCycles).instrs = s.instrs := rfl
@[simp] theorem State.freeCycles_host : (s.freeCycles).host = s.host := rfl
@[simp] theorem State.freeCycles_free : (s.freeCycles).free = s.free + 1 := rfl
@[simp] theorem State.freeCycles_cfg : (s.freeCycles).cfg = s.cfg := rfl

@[simp] theorem State.regs_A : (s.regs).A = s.A := rfl
@[simp] theorem State.regs_X : (s.regs).X = s.X := rfl
@[simp] theorem State.regs_Y : (s.regs).Y = s.Y := rfl
@[simp] theorem State.regs_S : (s.regs).S = s.S := rfl
@[simp] theorem State.regs_PC : (s.regs).PC = s.PC := rfl
@[simp] theorem State.regs_C : (s.regs).C = s.C := rfl
@[simp] theorem State.regs_Z : (s.regs).Z = s.Z := rfl
@[simp] theorem State.regs_I : (s.regs).I = s.I := rfl
@[simp] theorem State.regs_D : (s.regs).D = s.D := rfl
@[simp] theorem State.regs_V : (s.regs).V = s.V := rfl
@[simp] theorem State.regs_N : (s.regs).N = s.N := rfl
@[simp] theorem State.regs_mem : (s.regs).mem = [] := rfl
@[simp] theorem State.regs_trace : (s.regs).trace = [] := rfl
@[simp] theorem State.regs_cycles : (s.regs).cycles = 0 := rfl
@[simp] theorem State.regs_instrs : (s.regs).instrs = s.instrs := rfl
@[simp] theorem State.regs_host : (s.regs).host = s.host := rfl
@[simp] theorem State.regs_free : (s.regs).free = s.free := rfl
@[simp] theorem State.regs_cfg : (s.regs).cfg = s.cfg := rfl

@[simp] theorem State.arch_A : (s.arch).A = s.A := rfl
@[simp] theorem State.arch_X : (s.arch).X = s.X := rfl
@[simp] theorem State.arch_Y : (s.arch).Y = s.Y := rfl
@[simp] theorem State.arch_S : (s.arch).S = s.S := rfl
@[simp] theorem State.arch_PC : (s.arch).PC = s.PC := rfl
@[simp] theorem State.arch_C : (s.arch).C = s.C := rfl
@[simp] theorem State.arch_Z : (s.arch).Z = s.Z := rfl
@[simp] theorem State.arch_I : (s.arch).I = s.I := rfl
@[simp] theorem State.arch_D : (s.arch).D = s.D := rfl
@[simp] theorem State.arch_V : (s.arch).V = s.V := rfl
@[simp] theorem State.arch_N : (s.arch).N = s.N := rfl
@[simp] theorem State.arch_mem : (s.arch).mem = s.mem := rfl
@[simp] theorem State.arch_trace : (s.arch).trace = [] := rfl
@[simp] theorem State.arch_cycles : (s.arch).cycles = 0 := rfl
@[simp] theorem State.arch_instrs : (s.arch).instrs = s.instrs := rfl
@[simp] theorem State.arch_host : (s.arch).host = s.host := rfl
@[simp] theorem State.arch_free : (s.arch).free = s.free := rfl
@[simp] theorem State.arch_cfg : (s.arch).cfg = s.cfg := rfl

@[simp] theorem State.setA_A (v : Byte) : (s.setA v).A = v := rfl
@[simp] theorem State.setA_X (v : Byte) : (s.setA v).X = s.X := rfl
@[simp] theorem State.setA_Y (v : Byte) : (s.setA v).Y = s.Y := rfl
@[simp] theorem State.setA_S (v : Byte) : (s.setA v).S = s.S := rfl
@[simp] theorem State.setA_PC (v : Byte) : (s.setA v).PC = s.PC := rfl
@[simp] theorem State.setA_C (v : Byte) : (s.setA v).C = s.C := rfl
@[simp] theorem State.setA_Z (v : Byte) : (s.setA v).Z = s.Z := rfl
@[simp] theorem State.setA_I (v : Byte) : (s.setA v).I = s.I := rfl
@[simp] theorem State.setA_D (v : Byte) : (s.setA v).D = s.D := rfl
@[simp] theorem State.setA_V (v : Byte) : (s.setA v).V = s.V := rfl
@[simp] theorem State.setA_N (v : Byte) : (s.setA v).N = s.N := rfl
@[simp] theorem State.setA_mem (v : Byte) : (s.setA v).mem = s.mem := rfl
@[simp] theorem State.setA_trace (v : Byte) : (s.setA v).trace = s.trace := rfl
@[simp] theorem State.setA_cycles (v : Byte) : (s.setA v).cycles = s.cycles := rfl
@[simp] theorem State.setA_instrs (v : Byte) : (s.setA v).instrs = s.instrs := rfl
@[simp] theorem State.setA_host (v : Byte) : (s.setA v).host = s.host := rfl
@[simp] theorem State.setA_free (v : Byte) : (s.setA v).free = s.free := rfl
@[simp] theorem State.setA_cfg (v : Byte) : (s.setA v).cfg = s.cfg := rfl

@[simp] theorem State.setX_A (v : Byte) : (s.setX v).A = s.A := rfl
@[simp] theorem State.setX_X (v : Byte) : (s.setX v).X = v := rfl
@[simp] theorem State.setX_Y (v : Byte) : (s.setX v).Y = s.Y := rfl
@[simp] theorem State.setX_S (v : Byte) : (s.setX v).S = s.S := rfl
@[simp] theorem State.setX_PC (v : Byte) : (s.setX v).PC = s.PC := rfl
@[simp] theorem State.setX_C (v : Byte) : (s.setX v).C = s.C := rfl
@[simp] theorem State.setX_Z (v : Byte) : (s.setX v).Z = s.Z := rfl
@[simp] theorem State.setX_I (v : Byte) : (s.setX v).I = s.I := rfl
@[simp] theorem State.setX_D (v : Byte) : (s.setX v).D = s.D := rfl
@[simp] theorem State.setX_V (v : Byte) : (s.setX v).V = s.V := rfl
@[simp] theorem State.setX_N (v : Byte) : (s.setX v).N = s.N := rfl
@[simp] theorem State.setX_mem (v : Byte) : (s.setX v).mem = s.mem := rfl
@[simp] theorem State.setX_trace (v : Byte) : (s.setX v).trace = s.trace := rfl
@[simp] theorem State.setX_cycles (v : Byte) : (s.setX v).cycles = s.cycles := rfl
@[simp] theorem State.setX_instrs (v : Byte) : (s.setX v).instrs = s.instrs := rfl
@[simp] theorem State.setX_host (v : Byte) : (s.setX v).host = s.host := rfl
@[simp] theorem State.setX_free (v : Byte) : (s.setX v).free = s.free := rfl
@[simp] theorem State.setX_cfg (v : Byte) : (s.setX v).cfg = s.cfg := rfl

@[simp] theorem State.setY_A (v : Byte) : (s.setY v).A = s.A := rfl
@[simp] theorem State.setY_X (v : Byte) : (s.setY v).X = s.X := rfl
@[simp] theorem State.setY_Y (v : Byte) : (s.setY v).Y = v := rfl
@[simp] theorem State.setY_S (v : Byte) : (s.setY v).S = s.S := rfl
@[simp] theorem State.setY_PC (v : Byte) : (s.setY v).PC = s.PC := rfl
@[simp] theorem State.setY_C (v : Byte) : (s.setY v).C = s.C := rfl
@[simp] theorem State.setY_Z (v : Byte) : (s.setY v).Z = s.Z := rfl
@[simp] theorem State.setY_I (v : Byte) : (s.setY v).I = s.I := rfl
@[simp] theorem State.setY_D (v : Byte) : (s.setY v).D = s.D := rfl
@[simp] theorem State.setY_V (v : Byte) : (s.setY v).V = s.V := rfl
@[simp] theorem State.setY_N (v : Byte) : (s.setY v).N = s.N := rfl
@[simp] theorem State.setY_mem (v : Byte) : (s.setY v).mem = s.mem := rfl
@[simp] theorem State.setY_trace (v : Byte) : (s.setY v).trace = s.trace := rfl
@[simp] theorem State.setY_cycles (v : Byte) : (s.setY v).cycles = s.cycles := rfl
@[simp] theorem State.setY_instrs (v : Byte) : (s.setY v).instrs = s.instrs := rfl
@[simp] theorem State.setY_host (v : Byte) : (s.setY v).host = s.host := rfl
@[simp] theorem State.setY_free (v : Byte) : (s.setY v).free = s.free := rfl
@[simp] theorem State.setY_cfg (v : Byte) : (s.setY v).cfg = s.cfg := rfl

@[simp] theorem State.setS_A (v : Byte) : (s.setS v).A = s.A := rfl
@[simp] theorem State.setS_X (v : Byte) : (s.setS v).X = s.X := rfl
@[simp] theorem State.setS_Y (v : Byte) : (s.setS v).Y = s.Y := rfl
@[simp] theorem State.setS_S (v : Byte) : (s.setS v).S = v := rfl
@[simp] theorem State.setS_PC (v : Byte) : (s.setS v).PC = s.PC := rfl
@[simp] theorem State.setS_C (v : Byte) : (s.setS v).C = s.C := rfl
@[simp] theorem State.setS_Z (v : Byte) : (s.setS v).Z = s.Z := rfl
@[simp] theorem State.setS_I (v : Byte) : (s.setS v).I = s.I := rfl
@[simp] theorem State.setS_D (v : Byte) : (s.setS v).D = s.D := rfl
@[simp] theorem State.setS_V (v : Byte) : (s.setS v).V = s.V := rfl
@[simp] theorem State.setS_N (v : Byte) : (s.setS v).N = s.N := rfl
@[simp] theorem State.setS_mem (v : Byte) : (s.setS v).mem = s.mem := rfl
@[simp] theorem State.setS_trace (v : Byte) : (s.setS v).trace = s.trace := rfl
@[simp] theorem State.setS_cycles (v : Byte) : (s.setS v).cycles = s.cycles := rfl
@[simp] theorem State.setS_instrs (v : Byte) : (s.setS v).instrs = s.instrs := rfl
@[simp] theorem State.setS_host (v : Byte) : (s.setS v).host = s.host := rfl
@[simp] theorem State.setS_free (v : Byte) : (s.setS v).free = s.free := rfl
@[simp] theorem State.setS_cfg (v : Byte) : (s.setS v).cfg = s.cfg := rfl

@[simp] theorem State.setPC_A (v : Word) : (s.setPC v).A = s.A := rfl
@[simp] theorem State.setPC_X (v : Word) : (s.setPC v).X = s.X := rfl
@[simp] theorem State.setPC_Y (v : Word) : (s.setPC v).Y = s.Y := rfl
@[simp] theorem State.setPC_S (v : Word) : (s.setPC v).S = s.S := rfl
@[simp] theorem State.setPC_PC (v : Word) : (s.setPC v).PC = v := rfl
@[simp] theorem State.setPC_C (v : Word) : (s.setPC v).C = s.C := rfl
@[simp] theorem State.setPC_Z (v : Word) : (s.setPC v).Z = s.Z := rfl
@[simp] theorem State.setPC_I (v : Word) : (s.setPC v).I = s.I := rfl
@[simp] theorem State.setPC_D (v : Word) : (s.setPC v).D = s.D := rfl
@[simp] theorem State.setPC_V (v : Word) : (s.setPC v).V = s.V := rfl
@[simp] theorem State.setPC_N (v : Word) : (s.setPC v).N = s.N := rfl
@[simp] theorem State.setPC_mem (v : Word) : (s.setPC v).mem = s.mem := rfl
@[simp] theorem State.setPC_trace (v : Word) : (s.setPC v).trace = s.trace := rfl
@[simp] theorem State.setPC_cycles (v : Word) : (s.setPC v).cycles = s.cycles := rfl
@[simp] theorem State.setPC_instrs (v : Word) : (s.setPC v).instrs = s.instrs := rfl
@[simp] theorem State.setPC_host (v : Word) : (s.setPC v).host = s.host := rfl
@[simp] theorem State.setPC_free (v : Word) : (s.setPC v).free = s.free := rfl
@[simp] theorem State.setPC_cfg (v : Word) : (s.setPC v).cfg = s.cfg := rfl

@[simp] theorem State.setC_A (v : Bool) : (s.setC v).A = s.A := rfl
@[simp] theorem State.setC_X (v : Bool) : (s.setC v).X = s.X := rfl
@[simp] theorem State.setC_Y (v : Bool) : (s.setC v).Y = s.Y := rfl
@[simp] theorem State.setC_S (v : Bool) : (s.setC v).S = s.S := rfl
@[simp] theorem State.setC_PC (v : Bool) : (s.setC v).PC = s.PC := rfl
@[simp] theorem State.setC_C (v : Bool) : (s.setC v).C = v := rfl
@[simp] theorem State.setC_Z (v : Bool) : (s.setC v).Z = s.Z := rfl
@[simp] theorem State.setC_I (v : Bool) : (s.setC v).I = s.I := rfl
@[simp] theorem State.setC_D (v : Bool) : (s.setC v).D = s.D := rfl
@[simp] theorem State.setC_V (v : Bool) : (s.setC v).V = s.V := rfl
@[simp] theorem State.setC_N (v : Bool) : (s.setC v).N = s.N := rfl
@[simp] theorem State.setC_mem (v : Bool) : (s.setC v).mem = s.mem := rfl
@[simp] theorem State.setC_trace (v : Bool) : (s.setC v).trace = s.trace := rfl
@[simp] theorem State.setC_cycles (v : Bool) : (s.setC v).cycles = s.cycles := rfl
@[simp] theorem State.setC_instrs (v : Bool) : (s.setC v).instrs = s.instrs := rfl
@[simp] theorem State.setC_host (v : Bool) : (s.setC v).host = s.host := rfl
@[simp] theorem State.setC_free (v : Bool) : (s.setC v).free = s.free := rfl
@[simp] theorem State.setC_cfg (v : Bool) : (s.setC v).cfg = s.cfg := rfl

@[simp] theorem State.setZ_A (v : Bool) : (s.setZ v).A = s.A := rfl
@[simp] theorem State.setZ_X (v : Bool) : (s.setZ v).X = s.X := rfl
@[simp] theorem State.setZ_Y (v : Bool) : (s.setZ v).Y = s.Y := rfl
@[simp] theorem State.setZ_S (v : Bool) : (s.setZ v).S = s.S := rfl
@[simp] theorem State.setZ_PC (v : Bool) : (s.setZ v).PC = s.PC := rfl
@[simp] theorem State.setZ_C (v : Bool) : (s.setZ v).C = s.C := rfl
@[simp] theorem State.setZ_Z (v : Bool) : (s.setZ v).Z = v := rfl
@[simp] theorem State.setZ_I (v : Bool) : (s.setZ v).I = s.I := rfl
@[simp] theorem State.setZ_D (v : Bool) : (s.setZ v).D = s.D := rfl
@[simp] theorem State.setZ_V (v : Bool) : (s.setZ v).V = s.V := rfl
@[simp] theorem State.setZ_N (v : Bool) : (s.setZ v).N = s.N := rfl
@[simp] theorem State.setZ_mem (v : Bool) : (s.setZ v).mem = s.mem := rfl
@[simp] theorem State.setZ_trace (v : Bool) : (s.setZ v).trace = s.trace := rfl
@[simp] theorem State.setZ_cycles (v : Bool) : (s.setZ v).cycles = s.cycles := rfl
@[simp] theorem State.setZ_instrs (v : Bool) : (s.setZ v).instrs = s.instrs := rfl
@[simp] theorem State.setZ_host (v : Bool) : (s.setZ v).host = s.host := rfl
@[simp] theorem State.setZ_free (v : Bool) : (s.setZ v).free = s.free := rfl
@[simp] theorem State.setZ_cfg (v : Bool) : (s.setZ v).cfg = s.cfg := rfl

@[simp] theorem State.setI_A (v : Bool) : (s.setI v).A = s.A := rfl
@[simp] theorem State.setI_X (v : Bool) : (s.setI v).X = s.X := rfl
@[simp] theorem State.setI_Y (v : Bool) : (s.setI v).Y = s.Y := rfl
@[simp] theorem State.setI_S (v : Bool) : (s.setI v).S = s.S := rfl
@[simp] theorem State.setI_PC (v : Bool) : (s.setI v).PC = s.PC := rfl
@[simp] theorem State.setI_C (v : Bool) : (s.setI v).C = s.C := rfl
@[simp] theorem State.setI_Z (v : Bool) : (s.setI v).Z = s.Z := rfl
@[simp] theorem State.setI_I (v : Bool) : (s.setI v).I = v := rfl
@[simp] theorem State.setI_D (v : Bool) : (s.setI v).D = s.D := rfl
@[simp] theorem State.setI_V (v : Bool) : (s.setI v).V = s.V := rfl
@[simp] theorem State.setI_N (v : Bool) : (s.setI v).N = s.N := rfl
@[simp] theorem State.setI_mem (v : Bool) : (s.setI v).mem = s.mem := rfl
@[simp] theorem State.setI_trace (v : Bool) : (s.setI v).trace = s.trace := rfl
@[simp] theorem State.setI_cycles (v : Bool) : (s.setI v).cycles = s.cycles := rfl
@[simp] theorem State.setI_instrs (v : Bool) : (s.setI v).instrs = s.instrs := rfl
@[simp] theorem State.setI_host (v : Bool) : (s.setI v).host = s.host := rfl
@[simp] theorem State.setI_free (v : Bool) : (s.setI v).free = s.free := rfl
@[simp] theorem State.setI_cfg (v : Bool) : (s.setI v).cfg = s.cfg := rfl

@[simp] theorem State.setD_A (v : Bool) : (s.setD v).A = s.A := rfl
@[simp] theorem State.setD_X (v : Bool) : (s.setD v).X = s.X := rfl
@[simp] theorem State.setD_Y (v : Bool) : (s.setD v).Y = s.Y := rfl
@[simp] theorem State.setD_S (v : Bool) : (s.setD v).S = s.S := rfl
@[simp] theorem State.setD_PC (v : Bool) : (s.setD v).PC = s.PC := rfl
@[simp] theorem State.setD_C (v : Bool) : (s.setD v).C = s.C := rfl
@[simp] theorem State.setD_Z (v : Bool) : (s.setD v).Z = s.Z := rfl
@[simp] theorem State.setD_I (v : Bool) : (s.setD v).I = s.I := rfl
@[simp] theorem State.setD_D (v : Bool) : (s.setD v).D = v := rfl
@[simp] theorem State.setD_V (v : Bool) : (s.setD v).V = s.V := rfl
@[simp] theorem State.setD_N (v : Bool) : (s.setD v).N = s.N := rfl
@[simp] theorem State.setD_mem (v : Bool) : (s.setD v).mem = s.mem := rfl
@[simp] theorem State.setD_trace (v : Bool) : (s.setD v).trace = s.trace := rfl
@[simp] theorem State.setD_cycles (v : Bool) : (s.setD v).cycles = s.cycles := rfl
@[simp] theorem State.setD_instrs (v : Bool) : (s.setD v).instrs = s.instrs := rfl
@[simp] theorem State.setD_host (v : Bool) : (s.setD v).host = s.host := rfl
@[simp] theorem State.setD_free (v : Bool) : (s.setD v).free = s.free := rfl
@[simp] theorem State.setD_cfg (v : Bool) : (s.setD v).cfg = s.cfg := rfl

@[simp] theorem State.setV_A (v : Bool) : (s.setV v).A = s.A := rfl
@[simp] theorem State.setV_X (v : Bool) : (s.setV v).X = s.X := rfl
@[simp] theorem State.setV_Y (v : Bool) : (s.setV v).Y = s.Y := rfl
@[simp] theorem State.setV_S (v : Bool) : (s.setV v).S = s.S := rfl
@[simp] theorem State.setV_PC (v : Bool) : (s.setV v).PC = s.PC := rfl
@[simp] theorem State.setV_C (v : Bool) : (s.setV v).C = s.C := rfl
@[simp] theorem State.setV_Z (v : Bool) : (s.setV v).Z = s.Z := rfl
@[simp] theorem State.setV_I (v : Bool) : (s.setV v).I = s.I := rfl
@[simp] theorem State.setV_D (v : Bool) : (s.setV v).D = s.D := rfl
@[simp] theorem State.setV_V (v : Bool) : (s.setV v).V = v := rfl
@[simp] theorem State.setV_N (v : Bool) : (s.setV v).N = s.N := rfl
@[simp] theorem State.setV_mem (v : Bool) : (s.setV v).mem = s.mem := rfl
@[simp] theorem State.setV_trace (v : Bool) : (s.setV v).trace = s.trace := rfl
@[simp] theorem State.setV_cycles (v : Bool) : (s.setV v).cycles = s.cycles := rfl
@[simp] theorem State.setV_instrs (v : Bool) : (s.setV v).instrs = s.instrs := rfl
@[simp] theorem State.setV_host (v : Bool) : (s.setV v).host = s.host := rfl
@[simp] theorem State.setV_free (v : Bool) : (s.setV v).free = s.free := rfl
@[simp] theorem State.setV_cfg (v : Bool) : (s.setV v).cfg = s.cfg := rfl

@[simp] theorem State.setN_A (v : Bool) : (s.setN v).A = s.A := rfl
@[simp] theorem State.setN_X (v : Bool) : (s.setN v).X = s.X := rfl
@[simp] theorem State.setN_Y (v : Bool) : (s.setN v).Y = s.Y := rfl
@[simp] theorem State.setN_S (v : Bool) : (s.setN v).S = s.S := rfl
@[simp] theorem State.setN_PC (v : Bool) : (s.setN v).PC = s.PC := rfl
@[simp] theorem State.setN_C (v : Bool) : (s.setN v).C = s.C := rfl
@[simp] theorem State.setN_Z (v : Bool) : (s.setN v).Z = s.Z := rfl
@[simp] theorem State.setN_I (v : Bool) : (s.setN v).I = s.I := rfl
@[simp] theorem State.setN_D (v : Bool) : (s.setN v).D = s.D := rfl
@[simp] theorem State.setN_V (v : Bool) : (s.setN v).V = s.V := rfl
@[simp] theorem State.setN_N (v : Bool) : (s.setN v).N = v := rfl
@[simp] theorem State.setN_mem (v : Bool) : (s.setN v).mem = s.mem := rfl
@[simp] theorem State.setN_trace (v : Bool) : (s.setN v).trace = s.trace := rfl
@[simp] theorem State.setN_cycles (v : Bool) : (s.setN v).cycles = s.cycles := rfl
@[simp] theorem State.setN_instrs (v : Bool) : (s.setN v).instrs = s.instrs := rfl
@[simp] theorem State.setN_host (v : Bool) : (s.setN v).host = s.host := rfl
@[simp] theorem State.setN_free (v : Bool) : (s.setN v).free = s.free := rfl
@[simp] theorem State.setN_cfg (v : Bool) : (s.setN v).cfg = s.cfg := rfl

end Sys2Proof.Machine
end

