-- ==== Sys2Proof/Laws/Memory.lean ====
section
/-! SUPPORT. Memory: a read after a write, and every memory operation keeps the canonical form (spec 20_memory.md R75 (d)). -/

namespace Sys2Proof.Machine

theorem memRead_memErase_self (m : List Host.Cell) (a : Nat) : memRead (memErase m a) a = unlistedByte := by
  induction m with
  | nil => rfl
  | cons e m ih =>
    obtain ⟨b, w⟩ := e
    by_cases h : b = a <;> simp [memErase, memRead, h, ih]

theorem memRead_memErase_ne {a b : Nat} (m : List Host.Cell) (h : b ≠ a) : memRead (memErase m a) b = memRead m b := by
  induction m with
  | nil => rfl
  | cons e m ih =>
    obtain ⟨c, w⟩ := e
    by_cases hc : c = a
    · subst hc; simp [memErase, memRead, ih, Ne.symm h]
    · simp [memErase, memRead, hc, ih]

theorem memRead_memInsert_self (m : List Host.Cell) (a : Nat) (v : Byte) : memRead (memInsert m a v) a = v := by
  induction m with
  | nil => simp [memInsert, memRead]
  | cons e m ih =>
    obtain ⟨b, w⟩ := e
    unfold memInsert
    split_ifs with h1 h2
    · simp [memRead]
    · simp [memRead]
    · rw [memRead, if_neg (Ne.symm h2), ih]

theorem memRead_memInsert_ne {a b : Nat} (m : List Host.Cell) (v : Byte) (h : b ≠ a) :
    memRead (memInsert m a v) b = memRead m b := by
  induction m with
  | nil => simp [memInsert, memRead, Ne.symm h]
  | cons e m ih =>
    obtain ⟨c, w⟩ := e
    unfold memInsert
    split_ifs with h1 h2
    · simp [memRead, Ne.symm h]
    · subst h2; simp [memRead, Ne.symm h]
    · simp [memRead, ih]

/-- A read of the written address. -/
@[simp] theorem memRead_memWrite_self (m : List Host.Cell) (a : Nat) (v : Byte) : memRead (memWrite m a v) a = v := by
  unfold memWrite
  split_ifs with h
  · rw [memRead_memErase_self, h]
  · exact memRead_memInsert_self m a v

/-- A read of any other address. -/
theorem memRead_memWrite_ne {a b : Nat} (m : List Host.Cell) (v : Byte) (h : b ≠ a) :
    memRead (memWrite m a v) b = memRead m b := by
  unfold memWrite
  split_ifs
  · exact memRead_memErase_ne m h
  · exact memRead_memInsert_ne m v h

/-! ## The canonical form -/

theorem memWfFrom_mono {lo hi : Nat} {m : List Host.Cell} (h : memWfFrom hi m = true) (hle : lo ≤ hi) :
    memWfFrom lo m = true := by
  cases m with
  | nil => rfl
  | cons e m =>
    obtain ⟨b, w⟩ := e
    simp only [memWfFrom, Bool.and_eq_true, decide_eq_true_eq] at h ⊢
    exact ⟨⟨⟨by omega, h.1.1.2⟩, h.1.2⟩, h.2⟩

theorem memWfFrom_memErase {lo : Nat} {m : List Host.Cell} (a : Nat) (h : memWfFrom lo m = true) :
    memWfFrom lo (memErase m a) = true := by
  induction m generalizing lo with
  | nil => rfl
  | cons e m ih =>
    obtain ⟨b, w⟩ := e
    simp only [memWfFrom, Bool.and_eq_true, decide_eq_true_eq] at h
    unfold memErase
    split_ifs
    · exact memWfFrom_mono (ih h.2) (by omega)
    · simp [memWfFrom, h.1, ih h.2]

theorem memWfFrom_memInsert {lo a : Nat} {m : List Host.Cell} {v : Byte} (h : memWfFrom lo m = true) (hlo : lo ≤ a)
    (ha : a < 65536) (hv : v ≠ unlistedByte) : memWfFrom lo (memInsert m a v) = true := by
  induction m generalizing lo with
  | nil => simp [memInsert, memWfFrom, hlo, ha, hv]
  | cons e m ih =>
    obtain ⟨b, w⟩ := e
    simp only [memWfFrom, Bool.and_eq_true, decide_eq_true_eq] at h
    unfold memInsert
    split_ifs with h1 h2
    · simp only [memWfFrom, Bool.and_eq_true, decide_eq_true_eq]
      exact ⟨⟨⟨hlo, ha⟩, hv⟩, ⟨⟨by omega, h.1.1.2⟩, h.1.2⟩, h.2⟩
    · subst h2
      simp only [memWfFrom, Bool.and_eq_true, decide_eq_true_eq]
      exact ⟨⟨⟨hlo, ha⟩, hv⟩, h.2⟩
    · simp only [memWfFrom, Bool.and_eq_true, decide_eq_true_eq]
      exact ⟨h.1, ih h.2 (by omega)⟩

/-- A write keeps the canonical form. -/
theorem memWf_memWrite {m : List Host.Cell} {a : Nat} (v : Byte) (h : memWf m = true) (ha : a < 65536) :
    memWf (memWrite m a v) = true := by
  unfold memWrite
  split_ifs with hv
  · exact memWfFrom_memErase a h
  · exact memWfFrom_memInsert h (Nat.zero_le _) ha hv

/-- The memory of the state after reset has the canonical form. -/
theorem memWf_reset : memWf State.reset.mem = true := rfl

/-- Equal reads mean equal canonical memories. -/
theorem memWfFrom_ext {lo : Nat} {m n : List Host.Cell} (hm : memWfFrom lo m = true) (hn : memWfFrom lo n = true)
    (h : ∀ a, memRead m a = memRead n a) : m = n := by
  have below : ∀ {l : List Host.Cell} {k a : Nat}, memWfFrom k l = true → a < k → memRead l a = unlistedByte := by
    intro l
    induction l with
    | nil => intros; rfl
    | cons e l ih =>
      obtain ⟨b, w⟩ := e
      intro k a hl hk
      simp only [memWfFrom, Bool.and_eq_true, decide_eq_true_eq] at hl
      rw [memRead, if_neg (by omega)]
      exact ih hl.2 (by omega)
  induction m generalizing lo n with
  | nil =>
    cases n with
    | nil => rfl
    | cons e n =>
      obtain ⟨b, w⟩ := e
      simp only [memWfFrom, Bool.and_eq_true, decide_eq_true_eq] at hn
      have := h b
      simp [memRead] at this
      exact absurd this.symm hn.1.2
  | cons e m ih =>
    obtain ⟨b, w⟩ := e
    simp only [memWfFrom, Bool.and_eq_true, decide_eq_true_eq] at hm
    cases n with
    | nil =>
      have := h b
      simp [memRead] at this
      exact absurd this hm.1.2
    | cons e n =>
      obtain ⟨c, x⟩ := e
      simp only [memWfFrom, Bool.and_eq_true, decide_eq_true_eq] at hn
      have hb := h b
      have hc := h c
      simp only [memRead, if_true] at hb hc
      have hbc : b = c := by
        by_contra hne
        rcases Nat.lt_or_gt_of_ne hne with hlt | hlt
        · rw [if_neg (Ne.symm hne), below hn.2 (by omega)] at hb
          exact hm.1.2 hb
        · rw [if_neg hne, below hm.2 (by omega)] at hc
          exact hn.1.2 hc.symm
      subst hbc
      simp only [if_true] at hb
      subst hb
      congr 1
      refine ih hm.2 hn.2 fun a => ?_
      have ha := h a
      simp only [memRead] at ha
      by_cases hba : b = a
      · subst hba; rw [below hm.2 (by omega), below hn.2 (by omega)]
      · simpa [hba] using ha

/-! ## The bus contract -/

@[simp] theorem State.peek_poke_self (s : State) (a : Word) (v : Byte) : (s.poke a v).peek a = v := by
  simp [State.peek]

theorem State.peek_poke_ne {s : State} {a b : Word} {v : Byte} (h : b ≠ a) : (s.poke a v).peek b = s.peek b := by
  simp only [State.peek, State.poke_mem]
  exact memRead_memWrite_ne _ _ fun hn => h (BitVec.eq_of_toNat_eq hn)

theorem State.peek_poke (s : State) (a b : Word) (v : Byte) :
    (s.poke a v).peek b = if b = a then v else s.peek b := by
  split_ifs with h
  · subst h; exact State.peek_poke_self s b v
  · exact State.peek_poke_ne h

/-- What is read depends on memory alone. -/
theorem State.peek_congr {s t : State} (h : s.mem = t.mem) (a : Word) : s.peek a = t.peek a := by
  simp [State.peek, h]

theorem Inv_poke {s : State} (h : Inv s) (a : Word) (v : Byte) : Inv (s.poke a v) := by
  simpa [Inv] using memWf_memWrite v h a.isLt

theorem Inv_congr {s t : State} (h : Inv s) (e : t.mem = s.mem) : Inv t := by
  simpa [Inv, e] using h

end Sys2Proof.Machine
end

