-- ==== Sys2Proof/Laws/Exec.lean ====
section
/-! SUPPORT. The guard of every meaning: which terms run, and with what fault the others stop (spec 60_exceptions.md R400 to R407). -/

namespace Sys2Proof.Machine

/-- The opcode byte of the term exists and the configuration has it. -/
def usable (cfg : Config) (i : Instr) : Bool :=
  match opcodeOf i with
  | none    => false
  | some op => !isIllegalByte cfg op

theorem available_nmos {cfg : Config} (hv : cfg.variant = .nmos6502) {i : Instr} (hi : ∀ op, i ≠ .illegal op) :
    i.available cfg = usable cfg i := by
  obtain ⟨v, p2, _, _, _, _, _, _⟩ := cfg
  cases hv
  cases i
  all_goals first | rfl | exact absurd rfl (hi _) | (rename_i o; cases o <;> rfl)

theorem available_cmos {cfg : Config} (hv : cfg.variant = .cmos65C02) (hp : cfg.cmosBbrBbs = true) {i : Instr}
    (hi : ∀ op, i ≠ .illegal op) : i.available cfg = usable cfg i := by
  obtain ⟨v, p2, _, _, _, _, _, _⟩ := cfg
  cases hv
  cases hp
  cases i
  all_goals first | rfl | exact absurd rfl (hi _) | (rename_i o; cases o <;> rfl)

theorem available_cmos_noBitBranch {cfg : Config} (hv : cfg.variant = .cmos65C02) (hp : cfg.cmosBbrBbs = false) {i : Instr}
    (hi : ∀ op, i ≠ .illegal op) : i.available cfg = usable cfg i := by
  obtain ⟨v, p2, _, _, _, _, _, _⟩ := cfg
  cases hv
  cases hp
  cases i
  all_goals first | rfl | exact absurd rfl (hi _) | (rename_i o; cases o <;> rfl)

/-- The two tables of the spec agree: R97's bytes without R98's illegal ones are the available terms. -/
theorem available_eq_usable (cfg : Config) {i : Instr} (hi : ∀ op, i ≠ .illegal op) : i.available cfg = usable cfg i := by
  cases hv : cfg.variant with
  | nmos6502 => exact available_nmos hv hi
  | cmos65C02 =>
    cases hp : cfg.cmosBbrBbs with
    | false => exact available_cmos_noBitBranch hv hp hi
    | true => exact available_cmos hv hp hi

theorem wellFormed_eq_usable (cfg : Config) {i : Instr} (hi : ∀ op, i ≠ .illegal op) : i.wellFormed cfg = usable cfg i := by
  rw [← available_eq_usable cfg hi]
  cases i <;> first | rfl | exact absurd rfl (hi _)

theorem ne_illegal_of_stops {i : Instr} (h : i.stops = false) : ∀ op, i ≠ .illegal op := by
  rintro op rfl
  exact Bool.noConfusion h

/-- Everything the guard can do, on a term that is not `illegal`. -/
theorem runEntry_eq {i : Instr} (hi : ∀ op, i ≠ .illegal op) (s t : State) :
    runEntry i s t =
      if i.wellFormed s.cfg then .next t
      else match opcodeOf i with
        | none    => .fault (.unhandledAddressingMode s.PC (s.peek s.PC) s.fetch.trace)
        | some op => .fault (.illegalOpcode s.PC op s.fetch.trace) := by
  rw [wellFormed_eq_usable s.cfg hi]
  unfold runEntry usable
  cases opcodeOf i with
  | none => rfl
  | some op => cases h : isIllegalByte s.cfg op <;> simp [h]

/-- A well-formed term that does not stop runs. -/
theorem runEntry_next {i : Instr} {s : State} (hw : i.wellFormed s.cfg = true) (hs : i.stops = false) (t : State) :
    runEntry i s t = .next t := by
  rw [runEntry_eq (ne_illegal_of_stops hs), if_pos hw]

/-- The guard passes a state on and changes nothing. -/
theorem runEntry_eq_next {i : Instr} {s t u : State} (h : runEntry i s t = .next u) : t = u := by
  unfold runEntry at h
  split at h
  · cases h
  · split at h
    · cases h
    · cases h; rfl

/-! ## The effect -/

/-- The state that the meaning of each instruction hands to the guard. -/
def effect (i : Instr) (s : State) : State :=
  match i with
  | .lda o => ((s.load o).setA (s.operand o)).setNZ (s.operand o)
  | .ldx o => ((s.load o).setX (s.operand o)).setNZ (s.operand o)
  | .ldy o => ((s.load o).setY (s.operand o)).setNZ (s.operand o)
  | .and o => ((s.load o).setA (s.A &&& s.operand o)).setNZ (s.A &&& s.operand o)
  | .ora o => ((s.load o).setA (s.A ||| s.operand o)).setNZ (s.A ||| s.operand o)
  | .eor o => ((s.load o).setA (s.A ^^^ s.operand o)).setNZ (s.A ^^^ s.operand o)
  | .cmp o => (s.load o).compare s.A (s.operand o)
  | .cpx o => (s.load o).compare s.X (s.operand o)
  | .cpy o => (s.load o).compare s.Y (s.operand o)
  | .bit o => (s.load o).bitFlags o (s.operand o)
  | .adc o => ((s.load o).setAlu (adcResult s.cfg s.D s.A (s.operand o) s.C)).decimalExtra (s.ea o)
  | .sbc o => ((s.load o).setAlu (sbcResult s.cfg s.D s.A (s.operand o) s.C)).decimalExtra (s.ea o)
  | .sta o => s.store o s.A
  | .stx o => s.store o s.X
  | .sty o => s.store o s.Y
  | .stz o => s.store o 0x00
  | .asl o => ((s.modify o (aslByte (s.rmwOld o))).setC (bitOf (s.rmwOld o) 7)).setNZ (aslByte (s.rmwOld o))
  | .lsr o => ((s.modify o (lsrByte (s.rmwOld o))).setC (bitOf (s.rmwOld o) 0)).setNZ (lsrByte (s.rmwOld o))
  | .rol o => ((s.modify o (rolByte s.C (s.rmwOld o))).setC (bitOf (s.rmwOld o) 7)).setNZ (rolByte s.C (s.rmwOld o))
  | .ror o => ((s.modify o (rorByte s.C (s.rmwOld o))).setC (bitOf (s.rmwOld o) 0)).setNZ (rorByte s.C (s.rmwOld o))
  | .inc o => (s.modify o (s.rmwOld o + 1)).setNZ (s.rmwOld o + 1)
  | .dec o => (s.modify o (s.rmwOld o - 1)).setNZ (s.rmwOld o - 1)
  | .tsb o => (s.modify o ((s.rmwOld o) ||| s.A)).setZAnd (s.rmwOld o)
  | .trb o => (s.modify o ((s.rmwOld o) &&& (s.A ^^^ 0xFF))).setZAnd (s.rmwOld o)
  | .rmb0 zp => s.resetBit 0 zp
  | .rmb1 zp => s.resetBit 1 zp
  | .rmb2 zp => s.resetBit 2 zp
  | .rmb3 zp => s.resetBit 3 zp
  | .rmb4 zp => s.resetBit 4 zp
  | .rmb5 zp => s.resetBit 5 zp
  | .rmb6 zp => s.resetBit 6 zp
  | .rmb7 zp => s.resetBit 7 zp
  | .smb0 zp => s.setBit 0 zp
  | .smb1 zp => s.setBit 1 zp
  | .smb2 zp => s.setBit 2 zp
  | .smb3 zp => s.setBit 3 zp
  | .smb4 zp => s.setBit 4 zp
  | .smb5 zp => s.setBit 5 zp
  | .smb6 zp => s.setBit 6 zp
  | .smb7 zp => s.setBit 7 zp
  | .bpl off => s.fetch.fetch.branch (!s.N) off
  | .bmi off => s.fetch.fetch.branch s.N off
  | .bvc off => s.fetch.fetch.branch (!s.V) off
  | .bvs off => s.fetch.fetch.branch s.V off
  | .bcc off => s.fetch.fetch.branch (!s.C) off
  | .bcs off => s.fetch.fetch.branch s.C off
  | .bne off => s.fetch.fetch.branch (!s.Z) off
  | .beq off => s.fetch.fetch.branch s.Z off
  | .bra off => s.fetch.fetch.branch true off
  | .bbr0 zp off => s.bitBranch 0 false zp off
  | .bbr1 zp off => s.bitBranch 1 false zp off
  | .bbr2 zp off => s.bitBranch 2 false zp off
  | .bbr3 zp off => s.bitBranch 3 false zp off
  | .bbr4 zp off => s.bitBranch 4 false zp off
  | .bbr5 zp off => s.bitBranch 5 false zp off
  | .bbr6 zp off => s.bitBranch 6 false zp off
  | .bbr7 zp off => s.bitBranch 7 false zp off
  | .bbs0 zp off => s.bitBranch 0 true zp off
  | .bbs1 zp off => s.bitBranch 1 true zp off
  | .bbs2 zp off => s.bitBranch 2 true zp off
  | .bbs3 zp off => s.bitBranch 3 true zp off
  | .bbs4 zp off => s.bitBranch 4 true zp off
  | .bbs5 zp off => s.bitBranch 5 true zp off
  | .bbs6 zp off => s.bitBranch 6 true zp off
  | .bbs7 zp off => s.bitBranch 7 true zp off
  | .jmp o => (s.jumpAccess o).setPC (s.jumpTarget o)
  | .pha => s.implied.push s.A
  | .php => s.implied.push (s.pack true)
  | .phx => s.implied.push s.X
  | .phy => s.implied.push s.Y
  | .pla => (s.implied.stackTop.pull.setA s.pulled).setNZ s.pulled
  | .plx => (s.implied.stackTop.pull.setX s.pulled).setNZ s.pulled
  | .ply => (s.implied.stackTop.pull.setY s.pulled).setNZ s.pulled
  | .plp => s.implied.stackTop.pull.unpack s.pulled
  | .jsr target => s.callSubroutine (lo8 target)
  | .rts => s.returnSubroutine
  | .brk => s.fetch.fetch.interruptEntry vecIRQ true true
  | .rti => s.implied.stackTop.interruptReturn
  | .tax => (s.implied.setX s.A).setNZ s.A
  | .tay => (s.implied.setY s.A).setNZ s.A
  | .txa => (s.implied.setA s.X).setNZ s.X
  | .tya => (s.implied.setA s.Y).setNZ s.Y
  | .tsx => (s.implied.setX s.S).setNZ s.S
  | .txs => s.implied.setS s.X
  | .inx => (s.implied.setX (s.X + 1)).setNZ (s.X + 1)
  | .iny => (s.implied.setY (s.Y + 1)).setNZ (s.Y + 1)
  | .dex => (s.implied.setX (s.X - 1)).setNZ (s.X - 1)
  | .dey => (s.implied.setY (s.Y - 1)).setNZ (s.Y - 1)
  | .clc => s.implied.setC false
  | .sec => s.implied.setC true
  | .cli => s.implied.setI false
  | .sei => s.implied.setI true
  | .cld => s.implied.setD false
  | .sed => s.implied.setD true
  | .clv => s.implied.setV false
  | .nop => s.implied
  | .wai => s
  | .stp => s
  | .illegal _ => s

/-- A meaning is the guard applied to its effect. -/
theorem exec_eq_runEntry {i : Instr} (hs : i.stops = false) (s : State) : exec i s = runEntry i s (effect i s) := by
  cases i <;> first | rfl | cases hs

/-- A well-formed instruction that does not stop completes with its effect. -/
theorem exec_next {i : Instr} {s : State} (hw : i.wellFormed s.cfg = true) (hs : i.stops = false) :
    exec i s = .next (effect i s) := by
  rw [exec_eq_runEntry hs, runEntry_next hw hs]

/-- What completes is well-formed, does not stop, and is the effect. -/
theorem exec_next_inv {i : Instr} {s t : State} (h : exec i s = .next t) :
    i.wellFormed s.cfg = true ∧ i.stops = false ∧ t = effect i s := by
  have hs : i.stops = false := by
    cases i
    all_goals
      first
      | rfl
      | (simp only [exec, execWai, execStp, execIllegal, unsupported] at h
         split at h <;> cases h)
      | cases h
  have he := exec_eq_runEntry hs s
  rw [h] at he
  refine ⟨?_, hs, (runEntry_eq_next he.symm).symm⟩
  rw [runEntry_eq (ne_illegal_of_stops hs)] at he
  by_contra hw
  rw [if_neg hw] at he
  split at he <;> cases he

/-- An instruction that both variants have is well-formed for every configuration. -/
theorem wellFormed_of_common {cfg : Config} {i : Instr} (h : i.commonModes.contains i.mode = true) : i.wellFormed cfg = true := by
  have hb : i.isBitBranch = false := by cases i <;> first | rfl | cases h
  have ha : i.available cfg = true := by
    unfold Instr.available Instr.hasMode
    cases cfg.variant with
    | nmos6502 => exact h
    | cmos65C02 => rw [h, hb]; cases cfg.cmosBbrBbs <;> rfl
  cases i <;> first | exact ha | cases h

end Sys2Proof.Machine
end

