-- ==== Sys2Proof/Laws/Access.lean ====
section
/-! SUPPORT. The shared operations on the architectural state: what the bus patterns of the operand forms change once the trace
and the cycle counter are left out (spec 00_scope.md R14). -/

namespace Sys2Proof.Machine

/-! ## Adding to an address -/

theorem pc_two (w : Word) : w + 1 + 1 = w + 2 := by bv_omega
theorem pc_three (w : Word) : w + 1 + 1 + 1 = w + 3 := by bv_omega

/-! ## What is read after an update that writes no memory -/

@[simp] theorem State.peek_record (s : State) (a b : Word) (v : Byte) (d : BusDir) : (s.record a v d).peek b = s.peek b := rfl
@[simp] theorem State.peek_readBus (s : State) (a b : Word) : (s.readBus a).peek b = s.peek b := rfl
@[simp] theorem State.peek_fetch (s : State) (b : Word) : s.fetch.peek b = s.peek b := rfl
@[simp] theorem State.peek_dummy (s : State) (k : DummyKind) (a b : Word) : (s.dummy k a).peek b = s.peek b := rfl
@[simp] theorem State.peek_pull (s : State) (b : Word) : s.pull.peek b = s.peek b := rfl
@[simp] theorem State.peek_unpack (s : State) (v : Byte) (b : Word) : (s.unpack v).peek b = s.peek b := rfl
@[simp] theorem State.peek_enterFlags (s : State) (b : Word) : s.enterFlags.peek b = s.peek b := rfl
@[simp] theorem State.peek_arch (s : State) (b : Word) : s.arch.peek b = s.peek b := rfl
@[simp] theorem State.peek_beginTransaction (s : State) (b : Word) : s.beginTransaction.peek b = s.peek b := rfl
@[simp] theorem State.peek_retire (s : State) (b : Word) : s.retire.peek b = s.peek b := rfl
@[simp] theorem State.peek_setA (s : State) (v : Byte) (b : Word) : (s.setA v).peek b = s.peek b := rfl
@[simp] theorem State.peek_setX (s : State) (v : Byte) (b : Word) : (s.setX v).peek b = s.peek b := rfl
@[simp] theorem State.peek_setY (s : State) (v : Byte) (b : Word) : (s.setY v).peek b = s.peek b := rfl
@[simp] theorem State.peek_setS (s : State) (v : Byte) (b : Word) : (s.setS v).peek b = s.peek b := rfl
@[simp] theorem State.peek_setPC (s : State) (v b : Word) : (s.setPC v).peek b = s.peek b := rfl
theorem State.peek_push (s : State) (v : Byte) (b : Word) :
    (s.push v).peek b = if b = stackAddr s.S then v else s.peek b := State.peek_poke s _ b v
theorem State.peek_writeBus (s : State) (a b : Word) (v : Byte) :
    (s.writeBus a v).peek b = if b = a then v else s.peek b := State.peek_poke s a b v

/-! ## The architectural part and the registers of an update

In simp normal form `arch` and `regs` stand inside the register updates. -/

@[simp] theorem State.arch_arch (s : State) : s.arch.arch = s.arch := rfl
@[simp] theorem State.regs_arch (s : State) : s.arch.regs = s.regs := rfl
@[simp] theorem State.arch_record (s : State) (a : Word) (v : Byte) (d : BusDir) : (s.record a v d).arch = s.arch := rfl
@[simp] theorem State.regs_record (s : State) (a : Word) (v : Byte) (d : BusDir) : (s.record a v d).regs = s.regs := rfl
@[simp] theorem State.arch_readBus (s : State) (a : Word) : (s.readBus a).arch = s.arch := rfl
@[simp] theorem State.regs_readBus (s : State) (a : Word) : (s.readBus a).regs = s.regs := rfl
@[simp] theorem State.arch_dummy (s : State) (k : DummyKind) (a : Word) : (s.dummy k a).arch = s.arch := rfl
@[simp] theorem State.regs_dummy (s : State) (k : DummyKind) (a : Word) : (s.dummy k a).regs = s.regs := rfl
@[simp] theorem State.arch_stackTop (s : State) : (s.stackTop).arch = s.arch := rfl
@[simp] theorem State.regs_stackTop (s : State) : (s.stackTop).regs = s.regs := rfl
@[simp] theorem State.arch_beginTransaction (s : State) : (s.beginTransaction).arch = s.arch := rfl
@[simp] theorem State.regs_beginTransaction (s : State) : (s.beginTransaction).regs = s.regs := rfl
@[simp] theorem State.arch_poke (s : State) (a : Word) (v : Byte) : (s.poke a v).arch = s.arch.poke a v := rfl
@[simp] theorem State.regs_poke (s : State) (a : Word) (v : Byte) : (s.poke a v).regs = s.regs := rfl
@[simp] theorem State.arch_writeBus (s : State) (a : Word) (v : Byte) : (s.writeBus a v).arch = s.arch.poke a v := rfl
@[simp] theorem State.regs_writeBus (s : State) (a : Word) (v : Byte) : (s.writeBus a v).regs = s.regs := rfl
@[simp] theorem State.arch_fetch (s : State) : (s.fetch).arch = s.arch.setPC (s.PC + 1) := rfl
@[simp] theorem State.regs_fetch (s : State) : (s.fetch).regs = s.regs.setPC (s.PC + 1) := rfl
@[simp] theorem State.arch_implied (s : State) : (s.implied).arch = s.arch.setPC (s.PC + 1) := rfl
@[simp] theorem State.regs_implied (s : State) : (s.implied).regs = s.regs.setPC (s.PC + 1) := rfl
@[simp] theorem State.arch_push (s : State) (v : Byte) : (s.push v).arch = (s.arch.poke (stackAddr s.S) v).setS (s.S - 1) := rfl
@[simp] theorem State.regs_push (s : State) (v : Byte) : (s.push v).regs = s.regs.setS (s.S - 1) := rfl
@[simp] theorem State.arch_pull (s : State) : (s.pull).arch = s.arch.setS (s.S + 1) := rfl
@[simp] theorem State.regs_pull (s : State) : (s.pull).regs = s.regs.setS (s.S + 1) := rfl
@[simp] theorem State.arch_setA (s : State) (v : Byte) : (s.setA v).arch = s.arch.setA v := rfl
@[simp] theorem State.regs_setA (s : State) (v : Byte) : (s.setA v).regs = s.regs.setA v := rfl
@[simp] theorem State.arch_setX (s : State) (v : Byte) : (s.setX v).arch = s.arch.setX v := rfl
@[simp] theorem State.regs_setX (s : State) (v : Byte) : (s.setX v).regs = s.regs.setX v := rfl
@[simp] theorem State.arch_setY (s : State) (v : Byte) : (s.setY v).arch = s.arch.setY v := rfl
@[simp] theorem State.regs_setY (s : State) (v : Byte) : (s.setY v).regs = s.regs.setY v := rfl
@[simp] theorem State.arch_setS (s : State) (v : Byte) : (s.setS v).arch = s.arch.setS v := rfl
@[simp] theorem State.regs_setS (s : State) (v : Byte) : (s.setS v).regs = s.regs.setS v := rfl
@[simp] theorem State.arch_setPC (s : State) (v : Word) : (s.setPC v).arch = s.arch.setPC v := rfl
@[simp] theorem State.regs_setPC (s : State) (v : Word) : (s.setPC v).regs = s.regs.setPC v := rfl
@[simp] theorem State.arch_setC (s : State) (v : Bool) : (s.setC v).arch = s.arch.setC v := rfl
@[simp] theorem State.regs_setC (s : State) (v : Bool) : (s.setC v).regs = s.regs.setC v := rfl
@[simp] theorem State.arch_setZ (s : State) (v : Bool) : (s.setZ v).arch = s.arch.setZ v := rfl
@[simp] theorem State.regs_setZ (s : State) (v : Bool) : (s.setZ v).regs = s.regs.setZ v := rfl
@[simp] theorem State.arch_setI (s : State) (v : Bool) : (s.setI v).arch = s.arch.setI v := rfl
@[simp] theorem State.regs_setI (s : State) (v : Bool) : (s.setI v).regs = s.regs.setI v := rfl
@[simp] theorem State.arch_setD (s : State) (v : Bool) : (s.setD v).arch = s.arch.setD v := rfl
@[simp] theorem State.regs_setD (s : State) (v : Bool) : (s.setD v).regs = s.regs.setD v := rfl
@[simp] theorem State.arch_setV (s : State) (v : Bool) : (s.setV v).arch = s.arch.setV v := rfl
@[simp] theorem State.regs_setV (s : State) (v : Bool) : (s.setV v).regs = s.regs.setV v := rfl
@[simp] theorem State.arch_setN (s : State) (v : Bool) : (s.setN v).arch = s.arch.setN v := rfl
@[simp] theorem State.regs_setN (s : State) (v : Bool) : (s.setN v).regs = s.regs.setN v := rfl
@[simp] theorem State.arch_setNZ (s : State) (v : Byte) : (s.setNZ v).arch = s.arch.setNZ v := rfl
@[simp] theorem State.regs_setNZ (s : State) (v : Byte) : (s.setNZ v).regs = s.regs.setNZ v := rfl
@[simp] theorem State.arch_compare (s : State) (r m : Byte) : (s.compare r m).arch = s.arch.compare r m := rfl
@[simp] theorem State.regs_compare (s : State) (r m : Byte) : (s.compare r m).regs = s.regs.compare r m := rfl
@[simp] theorem State.arch_setAlu (s : State) (r : AluResult) : (s.setAlu r).arch = s.arch.setAlu r := rfl
@[simp] theorem State.regs_setAlu (s : State) (r : AluResult) : (s.setAlu r).regs = s.regs.setAlu r := rfl
@[simp] theorem State.arch_setZAnd (s : State) (m : Byte) : (s.setZAnd m).arch = s.arch.setZAnd m := rfl
@[simp] theorem State.regs_setZAnd (s : State) (m : Byte) : (s.setZAnd m).regs = s.regs.setZAnd m := rfl
@[simp] theorem State.arch_unpack (s : State) (v : Byte) : (s.unpack v).arch = s.arch.unpack v := rfl
@[simp] theorem State.regs_unpack (s : State) (v : Byte) : (s.unpack v).regs = s.regs.unpack v := rfl
@[simp] theorem State.arch_enterFlags (s : State) : (s.enterFlags).arch = s.arch.enterFlags := rfl
@[simp] theorem State.regs_enterFlags (s : State) : (s.enterFlags).regs = s.regs.enterFlags := rfl
@[simp] theorem State.arch_retire (s : State) : (s.retire).arch = s.arch.retire := rfl
@[simp] theorem State.regs_retire (s : State) : (s.retire).regs = s.regs.retire := rfl
@[simp] theorem State.arch_freeInstrs (s : State) : (s.freeInstrs).arch = s.arch.freeInstrs := rfl
@[simp] theorem State.regs_freeInstrs (s : State) : (s.freeInstrs).regs = s.regs.freeInstrs := rfl

@[simp] theorem State.setS_setS (s : State) (v w : Byte) : (s.setS v).setS w = s.setS w := rfl
@[simp] theorem State.setPC_setPC (s : State) (v w : Word) : (s.setPC v).setPC w = s.setPC w := rfl
theorem State.setPC_setS (s : State) (v : Word) (w : Byte) : (s.setPC v).setS w = (s.setS w).setPC v := rfl

@[simp] theorem State.implied_S (s : State) : s.implied.S = s.S := rfl
@[simp] theorem State.implied_PC (s : State) : s.implied.PC = s.PC + 1 := rfl
@[simp] theorem State.implied_cfg (s : State) : s.implied.cfg = s.cfg := rfl
@[simp] theorem State.stackTop_S (s : State) : s.stackTop.S = s.S := rfl
@[simp] theorem State.stackTop_PC (s : State) : s.stackTop.PC = s.PC := rfl
@[simp] theorem State.stackTop_cfg (s : State) : s.stackTop.cfg = s.cfg := rfl
@[simp] theorem State.stackTop_mem (s : State) : s.stackTop.mem = s.mem := rfl
@[simp] theorem State.peek_implied (s : State) (a : Word) : s.implied.peek a = s.peek a := rfl
@[simp] theorem State.peek_stackTop (s : State) (a : Word) : s.stackTop.peek a = s.peek a := rfl

/-! ## The operand forms -/

/-- The fix-up read changes nothing but the trace. -/
theorem State.arch_indexFixup (s : State) (k : AccessClass) (c : Bool) (w : Word) : (s.indexFixup k c w).arch = s.arch := by
  cases k <;> cases c <;> rfl

/-- The length of an instruction with this data operand. -/
def DataOperand.length (o : DataOperand) : Nat := o.mode.length

theorem State.arch_fetch2 (s : State) : s.fetch.fetch.arch = s.arch.setPC (s.PC + 2) := by
  rw [State.arch_fetch, State.arch_fetch, State.fetch_PC, State.setPC_setPC, pc_two]

theorem State.arch_fetch3 (s : State) : s.fetch.fetch.fetch.arch = s.arch.setPC (s.PC + 3) := by
  rw [State.arch_fetch, State.arch_fetch2, State.fetch_PC, State.fetch_PC, State.setPC_setPC, pc_three]

theorem State.fetch2_PC (s : State) : s.fetch.fetch.PC = s.PC + 2 := by rw [State.fetch_PC, State.fetch_PC, pc_two]

theorem State.fetch3_PC (s : State) : s.fetch.fetch.fetch.PC = s.PC + 3 := by
  rw [State.fetch_PC, State.fetch_PC, State.fetch_PC, pc_three]

/-- The accesses before the data access move PC past the operand bytes (only IMM leaves its byte to the data read). -/
theorem State.arch_access (s : State) (o : DataOperand) (k : AccessClass) (h : ∀ b, o ≠ .imm b) :
    (s.access o k).arch = s.arch.setPC (s.PC + BitVec.ofNat 16 o.mode.length) := by
  cases o
  case imm b => exact absurd rfl (h b)
  all_goals
    simp only [State.access, State.readZpPointer, State.arch_indexFixup, State.arch_dummy, State.arch_readBus,
      DataOperand.mode, Mode.length]
    first
    | rw [State.arch_fetch3]; rfl
    | rw [State.arch_fetch2]; rfl

/-- A load changes nothing but PC. -/
theorem State.arch_load (s : State) (o : DataOperand) :
    (s.load o).arch = s.arch.setPC (s.PC + BitVec.ofNat 16 o.mode.length) := by
  cases o
  case imm b => exact s.arch_fetch2
  all_goals
    rw [State.load, State.arch_readBus]
    exact s.arch_access _ .read (by simp)

/-- Equal architectural parts have equal registers. -/
theorem regs_of_arch {s t : State} (h : s.arch = t) : s.regs = t.regs := by rw [← h, State.regs_arch]

/-- Equal architectural parts have equal memory. -/
theorem peek_of_arch {s t : State} (h : s.arch = t) (a : Word) : s.peek a = t.peek a := by rw [← h, State.peek_arch]


/-- A store leaves the registers but PC. -/
theorem State.regs_store (s : State) (o : DataOperand) (v : Byte) (h : ∀ b, o ≠ .imm b) :
    (s.store o v).regs = s.regs.setPC (s.PC + BitVec.ofNat 16 o.mode.length) := by
  rw [State.store, State.regs_writeBus]
  exact regs_of_arch (s.arch_access o .write h)

/-- A store writes the one byte at the effective address. -/
theorem State.peek_store (s : State) (o : DataOperand) (v : Byte) (h : ∀ b, o ≠ .imm b) (a : Word) :
    (s.store o v).peek a = if a = s.ea o then v else s.peek a := by
  rw [State.store, State.peek_writeBus, peek_of_arch (s.arch_access o .write h)]
  rfl

/-- The middle access of a read-modify-write leaves the registers. -/
theorem State.regs_rmwMiddle (s : State) (a : Word) (v : Byte) : (s.rmwMiddle a v).regs = s.regs := by
  unfold State.rmwMiddle
  split <;> rfl

/-- The middle access of a read-modify-write writes back the value it read, so memory reads as before. -/
theorem State.peek_rmwMiddle (s : State) (a b : Word) : (s.rmwMiddle a (s.peek a)).peek b = s.peek b := by
  unfold State.rmwMiddle
  split
  · rfl
  · rw [State.peek_writeBus]; split_ifs with h <;> simp [h]
  · rw [State.peek_writeBus]; split_ifs with h <;> simp [h]

/-- The data operand of a memory form of read-modify-write is never IMM and has the same mode. -/
theorem rmwData_mode {o : RmwOperand} {d : DataOperand} (h : rmwData o = some d) :
    (∀ b, d ≠ .imm b) ∧ d.mode = o.mode := by
  cases o <;> cases h <;> exact ⟨by simp, rfl⟩

/-- A read-modify-write in memory leaves the registers but PC. -/
theorem State.regs_modify (s : State) {o : RmwOperand} {d : DataOperand} (h : rmwData o = some d) (v : Byte) :
    (s.modify o v).regs = s.regs.setPC (s.PC + BitVec.ofNat 16 o.mode.length) := by
  have hd := rmwData_mode h
  rw [State.modify, h, ← hd.2]
  simp only [State.regs_writeBus, State.regs_rmwMiddle, State.regs_readBus]
  exact regs_of_arch (s.arch_access d .rmw hd.1)

/-- A read-modify-write writes the one byte at the effective address. -/
theorem State.peek_modify (s : State) {o : RmwOperand} {d : DataOperand} (h : rmwData o = some d) (v : Byte) (a : Word) :
    (s.modify o v).peek a = if a = s.ea d then v else s.peek a := by
  have hd := rmwData_mode h
  have hp : ∀ b, (s.access d .rmw).peek b = s.peek b := fun b => peek_of_arch (s.arch_access d .rmw hd.1) b
  have hold : s.rmwOld o = ((s.access d .rmw).readBus (s.ea d)).peek (s.ea d) := by
    rw [State.rmwOld, h, State.peek_readBus, hp]
  rw [State.modify, h]
  simp only [State.peek_writeBus]
  rw [hold, State.peek_rmwMiddle, State.peek_readBus, hp]

/-- The accumulator form writes A and moves PC. -/
theorem State.arch_modify_acc (s : State) (v : Byte) :
    (s.modify .acc v).arch = (s.arch.setA v).setPC (s.PC + 1) := rfl

/-- The extra decimal read changes nothing but the trace. -/
theorem State.arch_decimalExtra (s : State) (a : Word) : (s.decimalExtra a).arch = s.arch := by
  unfold State.decimalExtra
  split <;> rfl

/-- The dummy reads of a branch change nothing but the trace. -/
theorem State.arch_branchDummies (s : State) (target : Word) : (s.branchDummies target).arch = s.arch := by
  unfold State.branchDummies
  dsimp only
  split <;> rfl

/-- A branch changes nothing but PC. -/
theorem State.arch_branch (s : State) (cond : Bool) (off : Byte) :
    (s.branch cond off).arch = s.arch.setPC (if cond then s.PC + sext16 off else s.PC) := by
  unfold State.branch
  cases cond
  · rfl
  · simp only [if_true, State.arch_setPC, State.arch_branchDummies]

/-- A jump's accesses change nothing but PC. -/
theorem State.arch_jumpAccess (s : State) (o : JumpOperand) : (s.jumpAccess o).arch = s.arch.setPC (s.PC + 3) := by
  cases o <;> simp only [State.jumpAccess, State.arch_readBus, State.arch_dummy, State.arch_fetch3]

end Sys2Proof.Machine
end

