-- ==== Sys2Proof/Laws/Decode.lean ====
section
/-! SUPPORT. The two tables of spec 30_encoding.md against each other: what the matrix of R96 holds at each byte is the instruction to
which R97, R99 and R105 give that byte, and its illegal slots are the list of R98. -/

namespace Sys2Proof

theorem Cell.length_pos (c : Cell) : 1 ≤ c.length := by cases c <;> exact Nat.le_add_left 1 _

theorem Cell.length_le_three (c : Cell) : c.length ≤ 3 := by cases c <;> simp [Cell.length]

/-- A slot of the matrix agrees with the other tables about the byte `b`: it is illegal and listed as such, or its instruction has
the opcode byte `b`, the operand bytes it was read from, and the slot's length. -/
def Cell.Agrees (b : Nat) (c : Cell) : Prop :=
  (c = .ill ∧ cmosIllegalBytes.contains (BitVec.ofNat 8 b) = true) ∨
  (cmosIllegalBytes.contains (BitVec.ofNat 8 b) = false ∧
    ∀ b0 b1 b2, opcodeOf (c.instr b0 b1 b2) = some (BitVec.ofNat 8 b) ∧ (∀ op, c.instr b0 b1 b2 ≠ .illegal op) ∧
      operandBytes (c.instr b0 b1 b2) = [b1, b2].take (c.length - 1) ∧ (c.instr b0 b1 b2).length = c.length)

/-- The slots from `b` on agree. -/
def AgreeFrom : Nat → List Cell → Prop
  | _, [] => True
  | b, c :: l => c.Agrees b ∧ AgreeFrom (b + 1) l

theorem opcodeMatrix_agrees : AgreeFrom 0 opcodeMatrix := by
  repeat' apply And.intro
  all_goals first
    | exact trivial
    | exact .inl ⟨rfl, rfl⟩
    | (refine .inr ⟨rfl, fun b0 b1 b2 => ⟨rfl, ?_, ?_, rfl⟩⟩
       · rintro op ⟨⟩
       · first
         | rfl
         | simp [Cell.instr, operandBytes, DataOperand.bytes, RmwOperand.bytes, JumpOperand.bytes, Cell.length])

theorem AgreeFrom.getD {l : List Cell} : ∀ {b : Nat}, AgreeFrom b l → ∀ k, k < l.length → (l.getD k .ill).Agrees (b + k) := by
  induction l with
  | nil => intro b _ k hk; exact absurd hk (Nat.not_lt_zero k)
  | cons c l ih =>
    intro b h k hk
    cases k with
    | zero => exact h.1
    | succ k =>
      have := ih h.2 k (by simpa using hk)
      rwa [Nat.add_right_comm, Nat.add_assoc] at this

/-- The slot of a byte agrees with the byte. -/
theorem slot_agrees (op : Byte) : (opcodeMatrix.getD op.toNat .ill).Agrees op.toNat := by
  have hl : opcodeMatrix.length = 256 := by simp only [opcodeMatrix, List.length_append]; rfl
  have := opcodeMatrix_agrees.getD op.toNat (by rw [hl]; exact op.isLt)
  rwa [Nat.zero_add] at this

/-- A byte that is illegal on CMOS65C02 is illegal on NMOS6502 (R98), so for every configuration. -/
theorem isIllegalByte_of_cmos {op : Byte} (h : cmosIllegalBytes.contains op = true) (cfg : Config) :
    isIllegalByte cfg op = true := by
  unfold isIllegalByte
  cases cfg.variant with
  | cmos65C02 => exact Bool.or_eq_true_iff.mpr (.inl h)
  | nmos6502 =>
    have all : cmosIllegalBytes.all nmosIllegalBytes.contains = true := by decide
    exact List.all_eq_true.mp all op (List.contains_iff_mem.mp h)

theorem tableCell_illegal {cfg : Config} {op : Byte} (h : isIllegalByte cfg op = true) : tableCell cfg op = .ill := by
  rw [tableCell, if_pos h]

theorem tableCell_legal {cfg : Config} {op : Byte} (h : isIllegalByte cfg op = false) :
    tableCell cfg op = opcodeMatrix.getD op.toNat .ill := by
  rw [tableCell, if_neg (by rw [h]; exact Bool.noConfusion)]

/-- Everything about the instruction read from a byte that is not illegal. -/
theorem decodeBytes_legal {cfg : Config} {b0 : Byte} (h : isIllegalByte cfg b0 = false) (b1 b2 : Byte) :
    opcodeOf (decodeBytes cfg b0 b1 b2) = some b0 ∧ (∀ op, decodeBytes cfg b0 b1 b2 ≠ .illegal op) ∧
      operandBytes (decodeBytes cfg b0 b1 b2) = [b1, b2].take ((tableCell cfg b0).length - 1) ∧
      (decodeBytes cfg b0 b1 b2).length = (tableCell cfg b0).length := by
  rw [decodeBytes, tableCell_legal h]
  have hb : BitVec.ofNat 8 b0.toNat = b0 := by simp
  rcases slot_agrees b0 with ⟨_, hc⟩ | ⟨_, hg⟩
  · rw [hb] at hc
    rw [isIllegalByte_of_cmos hc] at h
    exact absurd h (by decide)
  · have := hg b0 b1 b2
    rwa [hb] at this

/-- An illegal byte is read as the illegal marker, one byte long. -/
theorem decodeBytes_illegal {cfg : Config} {b0 : Byte} (h : isIllegalByte cfg b0 = true) (b1 b2 : Byte) :
    decodeBytes cfg b0 b1 b2 = .illegal b0 := by
  rw [decodeBytes, tableCell_illegal h]
  rfl

theorem decodeBytes_length (cfg : Config) (b0 b1 b2 : Byte) :
    (decodeBytes cfg b0 b1 b2).length = (tableCell cfg b0).length := by
  cases h : isIllegalByte cfg b0 with
  | false => exact (decodeBytes_legal h b1 b2).2.2.2
  | true => rw [decodeBytes_illegal h, tableCell_illegal h]; rfl

/-- The slot of an instruction's opcode byte reads its operand bytes, whatever follows them, as that instruction. -/
theorem slot_of_opcode {i : Instr} {op : Byte} (h : opcodeOf i = some op) (hi : ∀ b, i ≠ .illegal b) :
    (opcodeMatrix.getD op.toNat .ill).length = (operandBytes i).length + 1 ∧
    ∀ b0 rest, (opcodeMatrix.getD op.toNat .ill).instr b0 ((operandBytes i ++ rest).getD 0 0)
      ((operandBytes i ++ rest).getD 1 0) = i := by
  have key : ∀ c, opcodeMatrix.getD op.toNat .ill = c → c.length = (operandBytes i).length + 1 ∧
      (∀ b0 rest, c.instr b0 ((operandBytes i ++ rest).getD 0 0) ((operandBytes i ++ rest).getD 1 0) = i) →
      (opcodeMatrix.getD op.toNat .ill).length = (operandBytes i).length + 1 ∧
      ∀ b0 rest, (opcodeMatrix.getD op.toNat .ill).instr b0 ((operandBytes i ++ rest).getD 0 0)
        ((operandBytes i ++ rest).getD 1 0) = i := by
    rintro c rfl hc
    exact hc
  cases i
  case illegal b => exact absurd rfl (hi b)
  case jmp o =>
    cases o <;> cases h <;>
      exact key _ rfl ⟨rfl, fun b0 rest => by simp [Cell.instr, operandBytes, JumpOperand.bytes]; rfl⟩
  case jsr w => cases h; exact key _ rfl ⟨rfl, fun b0 rest => by simp [Cell.instr, operandBytes]; rfl⟩
  case lda o | ldx o | ldy o | and o | ora o | eor o | cmp o | cpx o | cpy o | bit o | adc o | sbc o | sta o | stx o | sty o | stz o =>
    cases o <;> first
      | cases h; done
      | (cases h; exact key _ rfl ⟨rfl, fun b0 rest => by simp [Cell.instr, operandBytes, DataOperand.bytes]; rfl⟩)
  case asl o | lsr o | rol o | ror o | inc o | dec o | tsb o | trb o =>
    cases o <;> first
      | cases h; done
      | (cases h; exact key _ rfl ⟨rfl, fun b0 rest => by simp [Cell.instr, operandBytes, RmwOperand.bytes]; rfl⟩)
  all_goals
    cases h
    exact key _ rfl ⟨rfl, fun b0 rest => rfl⟩

end Sys2Proof
end

