-- ==== Sys2Proof/Laws/Stack.lean ====
section
/-! SUPPORT. The stack operations, the subroutine call and return, and the exception entry and return: what each leaves in the
registers and in each byte of memory (spec 10_state.md R27 to R29, 46_stack_interrupt_shaped.md, 60_exceptions.md R415, R419). -/

namespace Sys2Proof.Machine

theorem sub_two (b : Byte) : b - 1 - 1 = b - 2 := by bv_omega
theorem sub_three (b : Byte) : b - 1 - 1 - 1 = b - 3 := by bv_omega
theorem add_two (b : Byte) : b + 1 + 1 = b + 2 := by bv_omega
theorem add_three (b : Byte) : b + 1 + 1 + 1 = b + 3 := by bv_omega

/-- The three bytes of an exception frame are three addresses. -/
theorem stackAddr_sub_one_ne (b : Byte) : stackAddr (b - 1) ≠ stackAddr b := by rw [ne_eq, stackAddr_inj]; bv_omega
theorem stackAddr_sub_two_ne (b : Byte) : stackAddr (b - 2) ≠ stackAddr b := by rw [ne_eq, stackAddr_inj]; bv_omega
theorem stackAddr_sub_two_ne_sub_one (b : Byte) : stackAddr (b - 2) ≠ stackAddr (b - 1) := by
  rw [ne_eq, stackAddr_inj]; bv_omega

/-! ## Push and pull -/

/-- A pull returns the last push. -/
theorem State.pulled_push (s : State) (v : Byte) : (s.push v).pulled = v := by
  have h : s.S - 1 + 1 = s.S := by bv_omega
  rw [State.pulled, State.push_S, h, State.peek_push, if_pos rfl]

theorem State.pushWord_PC (s : State) (w : Word) : (s.pushWord w).PC = s.PC := by
  rw [State.pushWord, State.push_PC, State.push_PC]

theorem State.pushWord_S (s : State) (w : Word) : (s.pushWord w).S = s.S - 2 := by
  rw [State.pushWord, State.push_S, State.push_S, sub_two]

theorem State.regs_pushWord (s : State) (w : Word) : (s.pushWord w).regs = s.regs.setS (s.S - 2) := by
  rw [State.pushWord, State.regs_push, State.regs_push, State.push_S, State.setS_setS, sub_two]

/-- A pushed word: the high byte at S, the low byte below it. -/
theorem State.peek_pushWord (s : State) (w a : Word) :
    (s.pushWord w).peek a =
      if a = stackAddr s.S then hi8 w else if a = stackAddr (s.S - 1) then lo8 w else s.peek a := by
  rw [State.pushWord, State.peek_push, State.peek_push, State.push_S]
  by_cases h : a = stackAddr s.S
  · subst h; rw [if_neg (stackAddr_sub_one_ne _).symm, if_pos rfl, if_pos rfl]
  · rw [if_neg h, if_neg h]

/-! ## Subroutines -/

/-- JSR: each byte of memory. -/
theorem State.peek_callSubroutine (s : State) (lo : Byte) (a : Word) :
    (s.callSubroutine lo).peek a =
      if a = stackAddr s.S then hi8 (s.PC + 2) else if a = stackAddr (s.S - 1) then lo8 (s.PC + 2) else s.peek a := by
  rw [State.callSubroutine, State.peek_setPC, State.peek_readBus, State.peek_pushWord, State.fetch2_PC, State.stackTop_S,
    State.fetch_S, State.fetch_S, State.peek_stackTop, State.peek_fetch, State.peek_fetch]

/-- JSR: PC is read after the pushes. -/
theorem State.callSubroutine_PC (s : State) (lo : Byte) :
    (s.callSubroutine lo).PC = word ((s.callSubroutine lo).peek (s.PC + 2)) lo := by
  rw [State.callSubroutine, State.setPC_PC, State.peek_setPC, State.peek_readBus, State.pushWord_PC, State.stackTop_PC,
    State.fetch2_PC]

/-- JSR: the registers. -/
theorem State.regs_callSubroutine (s : State) (lo : Byte) :
    (s.callSubroutine lo).regs =
      (s.regs.setS (s.S - 2)).setPC (word ((s.callSubroutine lo).peek (s.PC + 2)) lo) := by
  rw [← State.callSubroutine_PC, State.callSubroutine]
  simp only [State.regs_setPC, State.regs_readBus, State.regs_pushWord, State.regs_stackTop, State.regs_fetch,
    State.stackTop_S, State.fetch_S, State.setPC_setPC, State.setPC_setS, State.setPC_PC]

/-- RTS. -/
theorem State.arch_returnSubroutine (s : State) :
    s.returnSubroutine.arch =
      (s.arch.setS (s.S + 2)).setPC (word (s.peek (stackAddr (s.S + 2))) (s.peek (stackAddr (s.S + 1))) + 1) := by
  rw [← add_two, State.returnSubroutine]
  simp only [State.arch_setPC, State.arch_dummy, State.arch_pull, State.arch_stackTop, State.arch_implied, State.setPC_setPC,
    State.setS_setS, State.setPC_setS, State.pull_S, State.stackTop_S, State.implied_S, State.pulled, State.peek_pull,
    State.peek_stackTop, State.peek_implied]

/-! ## Exceptions -/

/-- The stack frame of an exception. -/
theorem State.peek_interruptEntry (s : State) (vec : Word) (b counted : Bool) (a : Word) :
    (s.interruptEntry vec b counted).peek a =
      if a = stackAddr s.S then hi8 s.PC else if a = stackAddr (s.S - 1) then lo8 s.PC
      else if a = stackAddr (s.S - 2) then s.pack b else s.peek a := by
  have h : (s.interruptEntry vec b counted).peek a = ((s.pushWord s.PC).push (s.pack b)).peek a := by cases counted <;> rfl
  rw [h, State.peek_push, State.pushWord_S, State.peek_pushWord]
  by_cases h1 : a = stackAddr s.S
  · subst h1; rw [if_neg (stackAddr_sub_two_ne _).symm, if_pos rfl, if_pos rfl]
  · by_cases h2 : a = stackAddr (s.S - 1)
    · subst h2
      rw [if_neg (stackAddr_sub_two_ne_sub_one _).symm, if_neg h1, if_pos rfl, if_neg h1, if_pos rfl]
    · rw [if_neg h1, if_neg h2, if_neg h1, if_neg h2]

/-- An address outside the stack page reads as before. -/
theorem State.peek_interruptEntry_of_le (s : State) (vec : Word) (b counted : Bool) {a : Word} (h : 0x200 ≤ a.toNat) :
    (s.interruptEntry vec b counted).peek a = s.peek a := by
  have hne : ∀ p, a ≠ stackAddr p := by
    rintro p rfl
    rw [stackAddr_toNat] at h
    have := p.isLt
    omega
  rw [State.peek_interruptEntry, if_neg (hne _), if_neg (hne _), if_neg (hne _)]

/-- Taking an exception: the registers, for a vector outside the stack page. -/
theorem State.regs_interruptEntry (s : State) (vec : Word) (b counted : Bool) (h : 0x200 ≤ vec.toNat)
    (h' : vec.toNat < 65535) :
    (s.interruptEntry vec b counted).regs = ((s.regs.setS (s.S - 3)).enterFlags).setPC (s.vectorWord vec) := by
  have hv : ((s.pushWord s.PC).push (s.pack b)).enterFlags.vectorWord vec = s.vectorWord vec := by
    have h1 := s.peek_interruptEntry_of_le vec b false h
    have h2 := s.peek_interruptEntry_of_le vec b false (a := vec + 1) (by bv_omega)
    exact congrArg₂ word h2 h1
  have hp : ((s.pushWord s.PC).push (s.pack b)).enterFlags.regs = (s.regs.setS (s.S - 3)).enterFlags := by
    rw [State.regs_enterFlags, State.regs_push, State.regs_pushWord, State.pushWord_S, State.setS_setS, ← sub_two, sub_three]
  rw [State.interruptEntry, State.fetchVector, hv]
  cases counted <;> exact congrArg (State.setPC · (s.vectorWord vec)) hp

/-- The flags on entry leave D to the variant. -/
theorem State.enterFlags_D (s : State) : s.enterFlags.D = if s.cfg.variant = .cmos65C02 then false else s.D := by
  rw [State.enterFlags]
  cases s.cfg.variant <;> rfl

/-- Returning from an exception. -/
theorem State.arch_interruptReturn (s : State) :
    s.interruptReturn.arch =
      ((s.arch.unpack (s.peek (stackAddr (s.S + 1)))).setS (s.S + 3)).setPC
        (word (s.peek (stackAddr (s.S + 3))) (s.peek (stackAddr (s.S + 2)))) := by
  rw [← add_two, ← add_three, State.interruptReturn]
  simp only [State.arch_setPC, State.arch_pull, State.arch_unpack, State.pull_S, State.unpack_S, State.pulled, State.peek_pull,
    State.peek_unpack]
  rfl

/-! ## The status byte -/

/-- Unpacking a packed status changes nothing. -/
theorem State.unpack_pack (s : State) (b : Bool) : s.unpack (s.pack b) = s := by
  obtain ⟨A, X, Y, S, PC, C, Z, I, D, V, N⟩ := s
  simp only [State.unpack, State.pack]
  congr 1 <;> revert C Z I D V N b <;> decide

end Sys2Proof.Machine
end

