-- ==== Sys2Proof/Laws/Families.lean ====
section
/-! SUPPORT. What the operations shared within a family do: the bit-numbered read-modify-writes, the bit branches, and the
arithmetic with its decimal access (spec 44_rmw.md R220, R221; 45_branch_jump.md R250, R251; 42_adc_sbc.md). -/

namespace Sys2Proof.Machine

@[simp] theorem State.ea_zp (s : State) (b : Byte) : s.ea (.zp b) = zeroPage b := by
  show zeroPage b + word 0 0 = zeroPage b
  exact BitVec.add_zero _

@[simp] theorem State.ea_imm (s : State) (b : Byte) : s.ea (.imm b) = s.PC + 1 := by
  show s.PC + 1 + word 0 0 = s.PC + 1
  exact BitVec.add_zero _

/-- The bits of a mask of one bit. -/
theorem bitOf_bitMask {n : Nat} (hn : n < 8) (k : Nat) : bitOf (bitMask n) k = decide (k = n) := by
  by_cases hk : k < 8
  · revert k n; decide
  · rw [bitOf, BitVec.getLsbD_of_ge _ k (by omega), eq_comm, decide_eq_false_iff_not]; omega

/-- The bits of the complement of a mask of one bit. -/
theorem bitOf_not_bitMask {n : Nat} (hn : n < 8) {k : Nat} (hk : k < 8) : bitOf (bitMask n ^^^ 0xFF) k = !decide (k = n) := by
  revert k n; decide

/-- One bit of a byte reset. -/
theorem bitOf_and_not_bitMask (v : Byte) {n : Nat} (hn : n < 8) (k : Nat) :
    bitOf (v &&& (bitMask n ^^^ 0xFF)) k = if k = n then false else bitOf v k := by
  by_cases hk : k < 8
  · rw [bitOf, BitVec.getLsbD_and, ← bitOf, ← bitOf, bitOf_not_bitMask hn hk]
    by_cases h : k = n <;> simp [h]
  · rw [bitOf, bitOf, BitVec.getLsbD_of_ge _ k (by omega), BitVec.getLsbD_of_ge v k (by omega), ite_self]

/-- One bit of a byte set. -/
theorem bitOf_or_bitMask (v : Byte) {n : Nat} (hn : n < 8) (k : Nat) :
    bitOf (v ||| bitMask n) k = if k = n then true else bitOf v k := by
  rw [bitOf, BitVec.getLsbD_or, ← bitOf, ← bitOf, bitOf_bitMask hn]
  by_cases h : k = n <;> simp [h]

theorem State.rmwOld_zp (s : State) (zp : Byte) : s.rmwOld (.zp zp) = s.peek (zeroPage zp) := by
  rw [← State.ea_zp s zp]; rfl

/-- RMBn: the registers. -/
theorem State.regs_resetBit (s : State) (n : Nat) (zp : Byte) : (s.resetBit n zp).regs = s.regs.setPC (s.PC + 2) :=
  s.regs_modify rfl _

/-- SMBn: the registers. -/
theorem State.regs_setBit (s : State) (n : Nat) (zp : Byte) : (s.setBit n zp).regs = s.regs.setPC (s.PC + 2) :=
  s.regs_modify rfl _

/-- RMBn: each byte of memory. -/
theorem State.peek_resetBit (s : State) (n : Nat) (zp : Byte) (a : Word) :
    (s.resetBit n zp).peek a =
      if a = zeroPage zp then s.peek (zeroPage zp) &&& (bitMask n ^^^ 0xFF) else s.peek a := by
  rw [State.resetBit, s.peek_modify rfl, State.ea_zp, State.rmwOld_zp]

/-- SMBn: each byte of memory. -/
theorem State.peek_setBit (s : State) (n : Nat) (zp : Byte) (a : Word) :
    (s.setBit n zp).peek a = if a = zeroPage zp then s.peek (zeroPage zp) ||| bitMask n else s.peek a := by
  rw [State.setBit, s.peek_modify rfl, State.ea_zp, State.rmwOld_zp]

theorem State.arch_bitBranchAccess (s : State) (zp : Byte) : (s.bitBranchAccess zp).arch = s.arch.setPC (s.PC + 3) := by
  rw [State.bitBranchAccess, State.arch_fetch, State.arch_dummy, State.arch_readBus, State.arch_fetch2, State.dummy_PC,
    State.readBus_PC, State.fetch2_PC, State.setPC_setPC, ← pc_two, pc_three]

/-- BBRn, BBSn. -/
theorem State.arch_bitBranch (s : State) (n : Nat) (want : Bool) (zp off : Byte) :
    (s.bitBranch n want zp off).arch =
      s.arch.setPC (if bitOf (s.peek (zeroPage zp)) n == want then s.PC + 3 + sext16 off else s.PC + 3) := by
  have hpc : (s.bitBranchAccess zp).PC = s.PC + 3 := (congrArg State.PC (s.arch_bitBranchAccess zp) :)
  rw [State.bitBranch, State.arch_branch, State.arch_bitBranchAccess, hpc, State.setPC_setPC]

/-- A decimal or binary addition or subtraction: the registers. -/
theorem State.arch_arith (s : State) (o : DataOperand) (r : AluResult) :
    (((s.load o).setAlu r).decimalExtra (s.ea o)).arch = (s.arch.setPC (s.PC + BitVec.ofNat 16 o.mode.length)).setAlu r := by
  rw [State.arch_decimalExtra, State.arch_setAlu, State.arch_load]

/-- BIT writes only flags. -/
theorem State.arch_bitFlags (s : State) (o : DataOperand) (m : Byte) : (s.bitFlags o m).arch = s.arch.bitFlags o m := by
  cases o <;> rfl

end Sys2Proof.Machine
end

