-- ==== Sys2Proof/Laws/Trace.lean ====
section
/-! SUPPORT. The trace and the cycle counter: what each shared operation appends (spec 48_bus_access_patterns.md). -/

namespace Sys2Proof.Machine

/-! ## Every operation only appends, one cycle for each access -/

/-- From `s` to `t` only counted accesses were made, as far as the bookkeeping shows. -/
def Counted (s t : State) : Prop :=
  (∃ l, t.trace = s.trace ++ l ∧ t.cycles = s.cycles + l.length) ∧ t.instrs = s.instrs ∧ t.host = s.host ∧
    t.free = s.free ∧ t.cfg = s.cfg

theorem Counted.refl (s : State) : Counted s s := ⟨⟨[], by simp, rfl⟩, rfl, rfl, rfl, rfl⟩

theorem Counted.trans {s t u : State} (h : Counted s t) (h' : Counted t u) : Counted s u := by
  obtain ⟨⟨l, hl, hc⟩, h1, h2, h3, h4⟩ := h
  obtain ⟨⟨l', hl', hc'⟩, h1', h2', h3', h4'⟩ := h'
  exact ⟨⟨l ++ l', by rw [hl', hl, List.append_assoc], by rw [hc', hc, List.length_append]; omega⟩,
    h1'.trans h1, h2'.trans h2, h3'.trans h3, h4'.trans h4⟩

theorem Counted.of_eq {s t : State} (h1 : t.trace = s.trace) (h2 : t.cycles = s.cycles) (h3 : t.instrs = s.instrs)
    (h4 : t.host = s.host) (h5 : t.free = s.free) (h6 : t.cfg = s.cfg) : Counted s t :=
  ⟨⟨[], by simp [h1], h2⟩, h3, h4, h5, h6⟩

theorem counted_record (s : State) (a : Word) (v : Byte) (d : BusDir) : Counted s (s.record a v d) :=
  ⟨⟨[⟨a, v, d⟩], rfl, rfl⟩, rfl, rfl, rfl, rfl⟩
theorem counted_readBus (s : State) (a : Word) : Counted s (s.readBus a) := counted_record s a _ _
theorem counted_writeBus (s : State) (a : Word) (v : Byte) : Counted s (s.writeBus a v) := counted_record (s.poke a v) a _ _
theorem counted_dummy (s : State) (k : DummyKind) (a : Word) : Counted s (s.dummy k a) := counted_readBus s _
theorem counted_fetch (s : State) : Counted s s.fetch := counted_readBus s s.PC
theorem counted_push (s : State) (v : Byte) : Counted s (s.push v) := counted_writeBus s _ v
theorem counted_pull (s : State) : Counted s s.pull := counted_readBus (s.setS (s.S + 1)) _
theorem counted_stackTop (s : State) : Counted s s.stackTop := counted_dummy s _ _

theorem counted_fetch2 (s : State) : Counted s s.fetch.fetch := (counted_fetch s).trans (counted_fetch _)
theorem counted_fetch3 (s : State) : Counted s s.fetch.fetch.fetch := (counted_fetch2 s).trans (counted_fetch _)
theorem counted_implied (s : State) : Counted s s.implied := (counted_fetch s).trans (counted_dummy _ _ _)
theorem counted_readZpPointer (s : State) (b : Byte) : Counted s (s.readZpPointer b) :=
  (counted_readBus s _).trans (counted_readBus _ _)

theorem counted_indexFixup (s : State) (k : AccessClass) (c : Bool) (w : Word) : Counted s (s.indexFixup k c w) := by
  cases k <;> cases c <;> first | exact counted_dummy s _ _ | exact Counted.refl s

theorem counted_access (s : State) (o : DataOperand) (k : AccessClass) : Counted s (s.access o k) := by
  cases o
  case imm b => exact counted_fetch s
  case zp b => exact counted_fetch2 s
  case zpx b => exact (counted_fetch2 s).trans (counted_dummy _ _ _)
  case zpy b => exact (counted_fetch2 s).trans (counted_dummy _ _ _)
  case abs w => exact counted_fetch3 s
  case abx w => exact (counted_fetch3 s).trans (counted_indexFixup _ _ _ _)
  case aby w => exact (counted_fetch3 s).trans (counted_indexFixup _ _ _ _)
  case izx b => exact ((counted_fetch2 s).trans (counted_dummy _ _ _)).trans (counted_readZpPointer _ _)
  case izy b => exact ((counted_fetch2 s).trans (counted_readZpPointer _ _)).trans (counted_indexFixup _ _ _ _)
  case izp b => exact (counted_fetch2 s).trans (counted_readZpPointer _ _)

theorem counted_load (s : State) (o : DataOperand) : Counted s (s.load o) := by
  cases o
  case imm b => exact counted_fetch2 s
  all_goals exact (counted_access s _ _).trans (counted_readBus _ _)

theorem counted_store (s : State) (o : DataOperand) (v : Byte) : Counted s (s.store o v) :=
  (counted_access s _ _).trans (counted_writeBus _ _ _)

theorem counted_decimalExtra (s : State) (a : Word) : Counted s (s.decimalExtra a) := by
  unfold State.decimalExtra
  split <;> first | exact counted_dummy _ _ _ | exact Counted.refl s

theorem counted_rmwMiddle (s : State) (a : Word) (v : Byte) : Counted s (s.rmwMiddle a v) := by
  unfold State.rmwMiddle
  split <;> first | exact counted_readBus _ _ | exact counted_writeBus _ _ _

theorem counted_modify (s : State) (o : RmwOperand) (v : Byte) : Counted s (s.modify o v) := by
  unfold State.modify
  split
  · exact counted_implied s
  · exact (((counted_access s _ _).trans (counted_readBus _ _)).trans (counted_rmwMiddle _ _ _)).trans (counted_writeBus _ _ _)

theorem counted_branch (s : State) (c : Bool) (off : Byte) : Counted s (s.branch c off) := by
  cases c
  · exact Counted.refl s
  · refine Counted.trans (t := s.branchDummies (s.PC + sext16 off)) ?_ (Counted.of_eq rfl rfl rfl rfl rfl rfl)
    unfold State.branchDummies
    dsimp only
    split
    · exact (counted_dummy s _ _).trans (counted_dummy _ _ _)
    · exact counted_dummy s _ _

theorem counted_bitBranch (s : State) (n : Nat) (w : Bool) (zp off : Byte) : Counted s (s.bitBranch n w zp off) :=
  ((((counted_fetch2 s).trans (counted_readBus _ _)).trans (counted_dummy _ _ _)).trans (counted_fetch _)).trans
    (counted_branch _ _ _)

theorem counted_jumpAccess (s : State) (o : JumpOperand) : Counted s (s.jumpAccess o) := by
  cases o
  · exact counted_fetch3 s
  · exact ((counted_fetch3 s).trans (counted_readBus _ _)).trans (counted_readBus _ _)
  · exact (((counted_fetch3 s).trans (counted_dummy _ _ _)).trans (counted_readBus _ _)).trans (counted_readBus _ _)

theorem counted_pushWord (s : State) (w : Word) : Counted s (s.pushWord w) := (counted_push s _).trans (counted_push _ _)

theorem Counted.setPC {s t : State} (h : Counted s t) (w : Word) : Counted s (t.setPC w) :=
  h.trans (Counted.of_eq rfl rfl rfl rfl rfl rfl)

theorem counted_callSubroutine (s : State) (lo : Byte) : Counted s (s.callSubroutine lo) :=
  ((((counted_fetch2 s).trans (counted_stackTop _)).trans (counted_pushWord _ _)).trans (counted_readBus _ _)).setPC _

theorem counted_returnSubroutine (s : State) : Counted s s.returnSubroutine :=
  (((((counted_implied s).trans (counted_stackTop _)).trans (counted_pull _)).trans (counted_pull _)).trans
    (counted_dummy _ _ _)).setPC _

theorem counted_interruptEntry (s : State) (vec : Word) (b counted : Bool) : Counted s (s.interruptEntry vec b counted) := by
  have h := ((counted_pushWord s s.PC).trans (counted_push _ (s.pack b))).trans
    (Counted.of_eq (t := ((s.pushWord s.PC).push (s.pack b)).enterFlags) rfl rfl rfl rfl rfl rfl)
  cases counted
  · exact h.setPC _
  · exact ((h.trans (counted_readBus _ _)).trans (counted_readBus _ _)).setPC _

theorem counted_interruptReturn (s : State) : Counted s s.interruptReturn :=
  ((((counted_pull s).trans (Counted.of_eq (t := s.pull.unpack s.pulled) rfl rfl rfl rfl rfl rfl)).trans
    (counted_pull _)).trans (counted_pull _)).setPC _

/-! Updates of registers and flags leave the bookkeeping. -/

theorem Counted.setA {s t : State} (h : Counted s t) (v : Byte) : Counted s (t.setA v) :=
  h.trans (Counted.of_eq rfl rfl rfl rfl rfl rfl)
theorem Counted.setX {s t : State} (h : Counted s t) (v : Byte) : Counted s (t.setX v) :=
  h.trans (Counted.of_eq rfl rfl rfl rfl rfl rfl)
theorem Counted.setY {s t : State} (h : Counted s t) (v : Byte) : Counted s (t.setY v) :=
  h.trans (Counted.of_eq rfl rfl rfl rfl rfl rfl)
theorem Counted.setS {s t : State} (h : Counted s t) (v : Byte) : Counted s (t.setS v) :=
  h.trans (Counted.of_eq rfl rfl rfl rfl rfl rfl)
theorem Counted.setC {s t : State} (h : Counted s t) (v : Bool) : Counted s (t.setC v) :=
  h.trans (Counted.of_eq rfl rfl rfl rfl rfl rfl)
theorem Counted.setZ {s t : State} (h : Counted s t) (v : Bool) : Counted s (t.setZ v) :=
  h.trans (Counted.of_eq rfl rfl rfl rfl rfl rfl)
theorem Counted.setI {s t : State} (h : Counted s t) (v : Bool) : Counted s (t.setI v) :=
  h.trans (Counted.of_eq rfl rfl rfl rfl rfl rfl)
theorem Counted.setD {s t : State} (h : Counted s t) (v : Bool) : Counted s (t.setD v) :=
  h.trans (Counted.of_eq rfl rfl rfl rfl rfl rfl)
theorem Counted.setV {s t : State} (h : Counted s t) (v : Bool) : Counted s (t.setV v) :=
  h.trans (Counted.of_eq rfl rfl rfl rfl rfl rfl)
theorem Counted.setN {s t : State} (h : Counted s t) (v : Bool) : Counted s (t.setN v) :=
  h.trans (Counted.of_eq rfl rfl rfl rfl rfl rfl)
theorem Counted.setNZ {s t : State} (h : Counted s t) (v : Byte) : Counted s (t.setNZ v) :=
  h.trans (Counted.of_eq rfl rfl rfl rfl rfl rfl)
theorem Counted.compare {s t : State} (h : Counted s t) (r m : Byte) : Counted s (t.compare r m) :=
  h.trans (Counted.of_eq rfl rfl rfl rfl rfl rfl)
theorem Counted.setAlu {s t : State} (h : Counted s t) (r : AluResult) : Counted s (t.setAlu r) :=
  h.trans (Counted.of_eq rfl rfl rfl rfl rfl rfl)
theorem Counted.setZAnd {s t : State} (h : Counted s t) (m : Byte) : Counted s (t.setZAnd m) :=
  h.trans (Counted.of_eq rfl rfl rfl rfl rfl rfl)
theorem Counted.unpack {s t : State} (h : Counted s t) (v : Byte) : Counted s (t.unpack v) :=
  h.trans (Counted.of_eq rfl rfl rfl rfl rfl rfl)

theorem Counted.bitFlags {s t : State} (h : Counted s t) (o : DataOperand) (m : Byte) : Counted s (t.bitFlags o m) := by
  cases o
  case imm b => exact h.setZAnd m
  all_goals exact ((h.setZAnd m).setN _).setV _

/-! ## What is appended, with the default dummy addresses -/

theorem dummyFn_default {cfg : Config} (h : DefaultDummies cfg) (k : DummyKind) : dummyFn cfg k = .table := by
  rw [dummyFn, h.1, h.2]
  exact ite_self _

theorem dummyAddr_default {s : State} (h : DefaultDummies s.cfg) (k : DummyKind) (a : Word) : dummyAddr s k a = a := by
  rw [dummyAddr, dummyFn_default h]
  rfl

/-- What a read sees depends on memory alone. -/
theorem rd_congr {s t : State} (h : ∀ a, s.peek a = t.peek a) (a : Word) : rd s a = rd t a := by rw [rd, rd, h]

@[simp] theorem rd_readBus (s : State) (a b : Word) : rd (s.readBus a) b = rd s b := rfl
@[simp] theorem rd_dummy (s : State) (k : DummyKind) (a b : Word) : rd (s.dummy k a) b = rd s b := rfl
@[simp] theorem rd_fetch (s : State) (b : Word) : rd s.fetch b = rd s b := rfl
@[simp] theorem rd_implied (s : State) (b : Word) : rd s.implied b = rd s b := rfl
@[simp] theorem rd_stackTop (s : State) (b : Word) : rd s.stackTop b = rd s b := rfl
@[simp] theorem rd_pull (s : State) (b : Word) : rd s.pull b = rd s b := rfl
@[simp] theorem rd_unpack (s : State) (v : Byte) (b : Word) : rd (s.unpack v) b = rd s b := rfl
@[simp] theorem rd_setPC (s : State) (w b : Word) : rd (s.setPC w) b = rd s b := rfl
@[simp] theorem rd_enterFlags (s : State) (b : Word) : rd s.enterFlags b = rd s b := rfl


theorem State.trace_dummy {s : State} (h : DefaultDummies s.cfg) (k : DummyKind) (a : Word) :
    (s.dummy k a).trace = s.trace ++ [rd s a] := by
  rw [State.dummy, dummyAddr_default h, State.readBus_trace]

theorem State.trace_stackTop {s : State} (h : DefaultDummies s.cfg) :
    s.stackTop.trace = s.trace ++ [rd s (stackAddr s.S)] := State.trace_dummy h _ _

theorem rdInstr_one (s : State) : rdInstr s 1 = [rd s s.PC] := by simp [rdInstr, List.range_succ]

theorem rdInstr_two (s : State) : rdInstr s 2 = [rd s s.PC, rd s (s.PC + 1)] := by simp [rdInstr, List.range_succ]

theorem rdInstr_three (s : State) : rdInstr s 3 = [rd s s.PC, rd s (s.PC + 1), rd s (s.PC + 2)] := by
  simp [rdInstr, List.range_succ]

theorem State.trace_fetch2 (s : State) : s.fetch.fetch.trace = s.trace ++ rdInstr s 2 := by
  rw [rdInstr_two, State.fetch_trace, State.fetch_trace, State.fetch_PC, rd_fetch, List.append_assoc]; rfl

theorem State.trace_fetch3 (s : State) : s.fetch.fetch.fetch.trace = s.trace ++ rdInstr s 3 := by
  rw [rdInstr_three, State.fetch_trace, State.trace_fetch2, State.fetch2_PC, rdInstr_two, rd_fetch, rd_fetch,
    List.append_assoc]; rfl

theorem State.trace_implied {s : State} (h : DefaultDummies s.cfg) : s.implied.trace = s.trace ++ impliedPattern s := by
  rw [State.implied, State.trace_dummy (by simpa using h), impliedPattern, rdInstr_two, State.fetch_trace, rd_fetch,
    List.append_assoc]; rfl

theorem State.trace_readZpPointer (s : State) (b : Byte) :
    (s.readZpPointer b).trace = s.trace ++ [rd s (zeroPage b), rd s (zeroPage (b + 1))] := by
  rw [State.readZpPointer, State.readBus_trace, State.readBus_trace, rd_readBus, List.append_assoc]; rfl

theorem State.trace_indexFixup {s t : State} (h : DefaultDummies t.cfg) (hp : ∀ a, rd t a = rd s a) (o : DataOperand)
    (k : AccessClass) : (t.indexFixup k (s.crossed o) (s.unc o)).trace = t.trace ++ fixupPattern s o k := by
  rw [fixupPattern]
  cases hc : s.crossed o <;> cases k <;>
    simp [State.indexFixup, State.trace_dummy h, hp]

/-- The accesses before the data access. -/
theorem State.trace_access {s : State} (h : DefaultDummies s.cfg) (o : DataOperand) (k : AccessClass) :
    (s.access o k).trace = s.trace ++ modePattern s o k := by
  cases o
  case imm b => rw [State.access, modePattern, rdInstr_one, State.fetch_trace]
  case zp b => exact s.trace_fetch2
  case abs w => exact s.trace_fetch3
  case abx w | aby w =>
    rw [State.access, State.trace_indexFixup (by simpa using h) (by simp), State.trace_fetch3, modePattern, List.append_assoc]
  case izy b =>
    rw [State.access, State.trace_indexFixup (by simpa [State.readZpPointer] using h) (by simp [State.readZpPointer]),
      State.trace_readZpPointer, State.trace_fetch2, modePattern, rd_fetch, rd_fetch, rd_fetch, rd_fetch]
    simp only [List.append_assoc]
  case izp b =>
    rw [State.access, State.trace_readZpPointer, State.trace_fetch2, modePattern, rd_fetch, rd_fetch, rd_fetch, rd_fetch,
      List.append_assoc]
  case zpx b | zpy b =>
    rw [State.access, State.trace_dummy (by simpa using h), State.trace_fetch2, modePattern, rd_fetch, rd_fetch,
      List.append_assoc]
  case izx b =>
    rw [State.access, State.trace_readZpPointer, State.trace_dummy (by simpa using h), State.trace_fetch2, modePattern]
    simp only [rd_dummy, rd_fetch, List.append_assoc]
    rfl

/-- The data access of an instruction sees the memory it started with. -/
theorem rd_access (s : State) (o : DataOperand) (k : AccessClass) (a : Word) : rd (s.access o k) a = rd s a := by
  by_cases h : ∃ b, o = .imm b
  · obtain ⟨b, rfl⟩ := h; rfl
  · exact rd_congr (peek_of_arch (s.arch_access o k fun b hb => h ⟨b, hb⟩)) a

theorem State.trace_load {s : State} (h : DefaultDummies s.cfg) (o : DataOperand) :
    (s.load o).trace = s.trace ++ readPattern s o := by
  cases o
  case imm b =>
    rw [readPattern, modePattern, State.load, State.trace_fetch2, rdInstr_two, rdInstr_one]
    rw [State.ea_imm]; rfl
  all_goals rw [State.load, State.readBus_trace, State.trace_access h, rd_access, readPattern, List.append_assoc]

theorem State.trace_store {s : State} (h : DefaultDummies s.cfg) (o : DataOperand) (v : Byte) :
    (s.store o v).trace = s.trace ++ writePattern s o v := by
  rw [State.store, State.writeBus_trace, State.trace_access h, writePattern, List.append_assoc]

theorem Counted.cfg_eq {s t : State} (h : Counted s t) : t.cfg = s.cfg := h.2.2.2.2

/-- The extra decimal read follows the data read, whatever the arithmetic between them gave. -/
theorem State.trace_arith {s : State} (h : DefaultDummies s.cfg) (o : DataOperand) (r : AluResult) :
    (((s.load o).setAlu r).decimalExtra (s.ea o)).trace = s.trace ++ decimalPattern s o := by
  have hc : (s.load o).cfg = s.cfg := (counted_load s o).cfg_eq
  have hD : (s.load o).D = s.D := (congrArg State.D (s.arch_load o) :)
  have hp : rd ((s.load o).setAlu r) (s.ea o) = rd s (s.ea o) := rd_congr (peek_of_arch (s.arch_load o)) _
  have ht := State.trace_load h o
  rw [decimalPattern, State.decimalExtra, State.setAlu_cfg, State.setAlu_D, hc, hD]
  cases s.cfg.variant <;> cases s.D <;> simp [ht, State.trace_dummy (s := (s.load o).setAlu r) (by rwa [State.setAlu_cfg, hc]), hp]

theorem State.trace_modify {s : State} (h : DefaultDummies s.cfg) (o : RmwOperand) (v : Byte) :
    (s.modify o v).trace = s.trace ++ rmwPattern s o v := by
  rw [State.modify, rmwPattern]
  cases hd : rmwData o with
  | none => exact State.trace_implied h
  | some d =>
    have hold : s.rmwOld o = s.peek (s.ea d) := by rw [State.rmwOld, hd]
    have hc : (s.access d .rmw).cfg = s.cfg := (counted_access s d .rmw).cfg_eq
    have hm : (((s.access d .rmw).readBus (s.ea d)).rmwMiddle (s.ea d) (s.rmwOld o)).trace =
        ((s.access d .rmw).readBus (s.ea d)).trace ++ [middlePattern s d] := by
      rw [State.rmwMiddle, middlePattern, State.readBus_cfg, hc, hold]
      cases s.cfg.variant <;> cases s.cfg.cmosRmwSecondAccess <;>
        simp [State.readBus_trace, State.writeBus_trace, rd_access]
    simp only [State.writeBus_trace, hm, State.readBus_trace, State.trace_access h, rd_access, List.append_assoc]
    rfl

theorem State.trace_branch {s : State} (h : DefaultDummies s.cfg) (c : Bool) (off : Byte) :
    (s.branch c off).trace = s.trace ++ (if c then takenPattern s s.PC off else []) := by
  cases c
  · simp [State.branch]
  · simp only [State.branch, if_true, State.setPC_trace, State.branchDummies, takenPattern, bne_iff_ne, ne_eq, ite_not]
    split_ifs
    · rw [State.trace_dummy h]; simp
    · rw [State.trace_dummy (by simpa using h), State.trace_dummy h, rd_dummy]
      exact List.append_assoc _ _ _

theorem State.trace_bitBranch {s : State} (h : DefaultDummies s.cfg) (n : Nat) (want : Bool) (zp off : Byte) :
    (s.bitBranch n want zp off).trace = s.trace ++ bitBranchPattern s n want zp off := by
  have hpc : (s.bitBranchAccess zp).PC = s.PC + 3 := (congrArg State.PC (s.arch_bitBranchAccess zp) :)
  have hc : (s.bitBranchAccess zp).cfg = s.cfg := (congrArg State.cfg (s.arch_bitBranchAccess zp) :)
  have hp : ∀ a, rd (s.bitBranchAccess zp) a = rd s a :=
    rd_congr fun a => by simpa using peek_of_arch (s.arch_bitBranchAccess zp) a
  have hk : takenPattern (s.bitBranchAccess zp) (s.PC + 3) off = takenPattern s (s.PC + 3) off := by
    simp only [takenPattern, hp, hc]
  have ht : (s.bitBranchAccess zp).trace =
      s.trace ++ (rdInstr s 2 ++ [rd s (zeroPage zp), rd s (zeroPage zp), rd s (s.PC + 2)]) := by
    rw [State.bitBranchAccess, State.fetch_trace, State.trace_dummy (by simpa using h), State.readBus_trace, State.trace_fetch2,
      State.dummy_PC, State.readBus_PC, State.fetch2_PC]
    simp only [rd_dummy, rd_readBus, rd_fetch, List.append_assoc]
    rfl
  rw [State.bitBranch, State.trace_branch (by rwa [hc]), hpc, hk, ht, bitBranchPattern]
  simp only [beq_iff_eq, List.append_assoc]

theorem State.trace_jumpAccess {s : State} (h : DefaultDummies s.cfg) (o : JumpOperand) :
    (s.jumpAccess o).trace = s.trace ++ jumpPattern s o := by
  cases o
  · exact s.trace_fetch3
  · simp only [State.jumpAccess, State.readBus_trace, State.trace_fetch3, rd_readBus, rd_fetch, List.append_assoc, jumpPattern]
    rfl
  · rw [State.jumpAccess, State.readBus_trace, State.readBus_trace, State.trace_dummy (by simpa using h), State.trace_fetch3,
      jumpPattern]
    simp only [rd_readBus, rd_dummy, rd_fetch, List.append_assoc]
    rfl

theorem State.trace_callSubroutine {s : State} (h : DefaultDummies s.cfg) (lo : Byte) :
    (s.callSubroutine lo).trace = s.trace ++ jsrPattern s := by
  have hr : rd (s.fetch.fetch.stackTop.pushWord (s.PC + 2)) (s.PC + 2) =
      rd ((s.poke (stackAddr s.S) (hi8 (s.PC + 2))).poke (stackAddr (s.S - 1)) (lo8 (s.PC + 2))) (s.PC + 2) :=
    rd_congr (State.peek_congr (by simp [State.pushWord])) _
  rw [State.callSubroutine, State.setPC_trace, State.readBus_trace, State.pushWord_PC, State.stackTop_PC, State.fetch2_PC, hr,
    State.pushWord, State.push_trace, State.push_trace, State.push_S, State.trace_stackTop (by simpa using h),
    State.trace_fetch2, jsrPattern]
  simp only [State.stackTop_S, State.fetch_S, rd_fetch, List.append_assoc]
  rfl

theorem State.trace_returnSubroutine {s : State} (h : DefaultDummies s.cfg) :
    s.returnSubroutine.trace = s.trace ++ (pullPattern s 2 ++ [rd s (pulledWord s)]) := by
  have hp : word s.implied.stackTop.pull.pulled s.implied.stackTop.pulled = pulledWord s := by
    simp only [State.pulled, pulledWord, State.peek_pull, State.peek_stackTop, State.peek_implied, State.pull_S,
      State.stackTop_S, State.implied_S, add_two]
  rw [State.returnSubroutine, State.setPC_trace, hp, State.trace_dummy (by simpa using h),
    State.pull_trace, State.pull_trace, State.trace_stackTop (by simpa using h), State.trace_implied h]
  simp only [rd_pull, rd_stackTop, rd_implied, State.pull_S, State.stackTop_S, State.implied_S, add_two, pullPattern,
    impliedPattern, List.append_assoc]
  rfl

theorem State.trace_interruptEntry (s : State) (vec : Word) (b counted : Bool) (hv : 0x200 ≤ vec.toNat)
    (hv' : vec.toNat < 65535) :
    (s.interruptEntry vec b counted).trace = s.trace ++ ([wr (stackAddr s.S) (hi8 s.PC), wr (stackAddr (s.S - 1)) (lo8 s.PC),
      wr (stackAddr (s.S - 2)) (s.pack b)] ++ if counted then [rd s vec, rd s (vec + 1)] else []) := by
  have hp : ∀ a : Word, 0x200 ≤ a.toNat → rd ((s.pushWord s.PC).push (s.pack b)).enterFlags a = rd s a := by
    intro a ha
    have h := s.peek_interruptEntry_of_le vec b false ha
    rw [rd, rd]
    exact congrArg (BusAccess.mk a · BusDir.read) h
  have ht : ((s.pushWord s.PC).push (s.pack b)).enterFlags.trace = s.trace ++ [wr (stackAddr s.S) (hi8 s.PC),
      wr (stackAddr (s.S - 1)) (lo8 s.PC), wr (stackAddr (s.S - 2)) (s.pack b)] := by
    rw [State.enterFlags_trace, State.push_trace, State.pushWord_S, State.pushWord, State.push_trace, State.push_trace,
      State.push_S]
    simp only [List.append_assoc]
    rfl
  rw [State.interruptEntry, State.fetchVector]
  cases counted
  · rw [if_neg Bool.false_ne_true, State.setPC_trace, ht]; rfl
  · simp only [if_true, State.setPC_trace, State.readBus_trace, rd_readBus, ht, hp vec hv, hp (vec + 1) (by bv_omega),
      List.append_assoc]
    rfl

theorem State.trace_interruptReturn {s : State} :
    s.interruptReturn.trace = s.trace ++ [rd s (stackAddr (s.S + 1)), rd s (stackAddr (s.S + 2)), rd s (stackAddr (s.S + 3))] := by
  rw [State.interruptReturn, State.setPC_trace, State.pull_trace, State.pull_trace, State.unpack_trace, State.pull_trace]
  simp only [rd_pull, rd_unpack, State.pull_S, State.unpack_S, add_two, List.append_assoc, ← add_three]
  rfl

end Sys2Proof.Machine
end

