-- ==== Sys2Proof/Laws/Step.lean ====
section
/-! SUPPORT. What a step can do: the next pending host call, or the instruction at PC (spec 60_exceptions.md R430). -/

namespace Sys2Proof.Machine

/-- `Step()` is the instruction at PC on the state with the trace emptied, counted when it completes. -/
theorem stepInstr_eq (s : State) : stepInstr s = retired (exec (fetchInstr s) s.beginTransaction) := by
  unfold stepInstr
  cases exec (fetchInstr s) s.beginTransaction <;> rfl

/-- With no host call pending the step is `Step()`. -/
theorem step_nil {s : State} (h : s.host = []) : step s = stepInstr s := by
  unfold step
  rw [h]

/-- With a host call pending the step is that call. -/
theorem step_cons {s : State} {c : HostCall} {calls : List HostCall} (h : s.host = c :: calls) :
    step s = hostCall c { s with host := calls } := by
  unfold step
  rw [h]

/-- A call other than Step() always answers a next state. -/
theorem hostCall_next {c : HostCall} (h : c ≠ .step) (s : State) : hostCall c s = .next (s.beginTransaction.hostSet c) := by
  cases c <;> first | rfl | exact absurd rfl h

/-- What the decoder reads from the three bytes at PC is the instruction that the step executes. -/
theorem fetchInstr_of_decode {s : State} {i : Instr} {rest : List Byte}
    (h : decode s.cfg [s.peek s.PC, s.peek (s.PC + 1), s.peek (s.PC + 2)] = .ok (i, rest)) : fetchInstr s = i := by
  simp only [decode] at h
  split at h
  · cases h
  · injection h with h
    injection h

/-- A well-formed term other than `illegal` has an opcode byte, which the configuration has. -/
theorem legal_of_wellFormed {cfg : Config} {i : Instr} (hw : i.wellFormed cfg = true) (hi : ∀ b, i ≠ .illegal b) :
    ∃ op, opcodeOf i = some op ∧ isIllegalByte cfg op = false := by
  rw [wellFormed_eq_usable cfg hi, usable] at hw
  cases h : opcodeOf i with
  | none => rw [h] at hw; cases hw
  | some op => rw [h] at hw; exact ⟨op, rfl, by simpa using hw⟩

/-- The other way round. -/
theorem wellFormed_of_legal {cfg : Config} {i : Instr} {op : Byte} (ho : opcodeOf i = some op)
    (hl : isIllegalByte cfg op = false) (hi : ∀ b, i ≠ .illegal b) : i.wellFormed cfg = true := by
  rw [wellFormed_eq_usable cfg hi, usable, ho]
  simp [hl]

/-- The instruction at PC is well-formed, and its opcode byte is the byte at PC. -/
theorem fetchInstr_wellFormed (s : State) :
    (fetchInstr s).wellFormed s.cfg = true ∧ opcodeOf (fetchInstr s) = some (s.peek s.PC) := by
  unfold fetchInstr
  cases h : isIllegalByte s.cfg (s.peek s.PC) with
  | true => rw [decodeBytes_illegal h]; exact ⟨h, rfl⟩
  | false =>
    obtain ⟨ho, hi, _⟩ := decodeBytes_legal h (s.peek (s.PC + 1)) (s.peek (s.PC + 2))
    exact ⟨wellFormed_of_legal ho h hi, ho⟩

/-- The three terms that stop, and with what: an illegal byte, or WAI and STP, on CMOS65C02 with the fault of their own; each has
made the opcode fetch. -/
theorem exec_stops {i : Instr} (h : i.stops = true) (s : State) {op : Byte} (ho : opcodeOf i = some op) :
    exec i s = .fault (.illegalOpcode s.PC op (s.trace ++ [rd s s.PC])) ∨
      exec i s = .fault (.unsupportedInstruction s.PC op (s.trace ++ [rd s s.PC])) := by
  rw [← State.fetch_trace]
  cases i
  case illegal b => cases ho; exact .inl rfl
  case wai | stp =>
    cases ho
    simp only [exec, execWai, execStp, unsupported]
    split
    · exact .inl rfl
    · exact .inr rfl
  all_goals cases h

/-- A well-formed term stops only with one of the two faults of R404 and R406. -/
theorem exec_wellFormed {i : Instr} {s : State} {op : Byte} (hw : i.wellFormed s.cfg = true) (ho : opcodeOf i = some op) :
    (∃ t, exec i s = .next t) ∨ exec i s = .fault (.illegalOpcode s.PC op (s.trace ++ [rd s s.PC])) ∨
      exec i s = .fault (.unsupportedInstruction s.PC op (s.trace ++ [rd s s.PC])) := by
  cases h : i.stops with
  | false => exact .inl ⟨_, exec_next hw h⟩
  | true => exact .inr (exec_stops h s ho)

/-! ## Interrupts -/

/-- NMI: the registers, and the free value in the instruction counter. -/
theorem State.regs_nmi (s : State) :
    s.nmi.regs = (((s.regs.setS (s.S - 3)).enterFlags).setPC (s.vectorWord vecNMI)).freeInstrs := by
  rw [State.nmi, State.regs_freeInstrs, State.regs_interruptEntry _ _ _ _ (by decide) (by decide)]

/-- A taken IRQ. -/
theorem State.irq_taken {s : State} (h : s.I = false) :
    s.irq = (s.interruptEntry vecIRQ false s.cfg.intVectorFetchCounted).freeInstrs := by
  rw [State.irq, h, if_neg Bool.false_ne_true]

/-- A masked IRQ. -/
theorem State.irq_masked {s : State} (h : s.I = true) : s.irq = s := by
  rw [State.irq, h, if_pos rfl]

/-- A taken IRQ: the registers, and the free value in the instruction counter. -/
theorem State.regs_irq {s : State} (h : s.I = false) :
    s.irq.regs = (((s.regs.setS (s.S - 3)).enterFlags).setPC (s.vectorWord vecIRQ)).freeInstrs := by
  rw [State.irq_taken h, State.regs_freeInstrs, State.regs_interruptEntry _ _ _ _ (by decide) (by decide)]

end Sys2Proof.Machine
end

