-- ==== Sys2Proof/Laws/Invariant.lean ====
section
/-! SUPPORT. Every operation that writes memory keeps its canonical form. -/

namespace Sys2Proof.Machine

/-- An update that leaves memory keeps the invariant. -/
theorem Inv.of_arch {s t u : State} (h : Inv s) (ha : t.arch = u) (hm : u.mem = s.mem) : Inv t :=
  Inv_congr h ((congrArg State.mem ha).trans hm)

theorem Inv.writeBus {s : State} (h : Inv s) (a : Word) (v : Byte) : Inv (s.writeBus a v) := Inv_poke h a v

theorem Inv.push {s : State} (h : Inv s) (v : Byte) : Inv (s.push v) := h.writeBus (stackAddr s.S) v

theorem Inv.pushWord {s : State} (h : Inv s) (w : Word) : Inv (s.pushWord w) := (h.push _).push _

theorem Inv.access {s : State} (h : Inv s) (o : DataOperand) (k : AccessClass) : Inv (s.access o k) := by
  by_cases hi : ∃ b, o = .imm b
  · obtain ⟨b, rfl⟩ := hi; exact h
  · exact h.of_arch (s.arch_access o k fun b hb => hi ⟨b, hb⟩) rfl

theorem Inv.load {s : State} (h : Inv s) (o : DataOperand) : Inv (s.load o) := h.of_arch (s.arch_load o) rfl

theorem Inv.store {s : State} (h : Inv s) (o : DataOperand) (v : Byte) : Inv (s.store o v) := (h.access o .write).writeBus _ _

theorem Inv.rmwMiddle {s : State} (h : Inv s) (a : Word) (v : Byte) : Inv (s.rmwMiddle a v) := by
  unfold State.rmwMiddle
  split
  · exact h
  · exact h.writeBus a v
  · exact h.writeBus a v

theorem Inv.modify {s : State} (h : Inv s) (o : RmwOperand) (v : Byte) : Inv (s.modify o v) := by
  unfold State.modify
  split
  · exact h
  · exact (((show Inv ((s.access _ .rmw).readBus _) from h.access _ .rmw)).rmwMiddle _ _).writeBus _ _

theorem Inv.decimalExtra {s : State} (h : Inv s) (a : Word) : Inv (s.decimalExtra a) := h.of_arch (s.arch_decimalExtra a) rfl

theorem Inv.branch {s : State} (h : Inv s) (c : Bool) (off : Byte) : Inv (s.branch c off) := h.of_arch (s.arch_branch c off) rfl

theorem Inv.bitBranch {s : State} (h : Inv s) (n : Nat) (w : Bool) (zp off : Byte) : Inv (s.bitBranch n w zp off) :=
  h.of_arch (s.arch_bitBranch n w zp off) rfl

theorem Inv.jumpAccess {s : State} (h : Inv s) (o : JumpOperand) : Inv (s.jumpAccess o) := h.of_arch (s.arch_jumpAccess o) rfl

theorem Inv.callSubroutine {s : State} (h : Inv s) (lo : Byte) : Inv (s.callSubroutine lo) := by
  have h1 : Inv s.fetch.fetch.stackTop := Inv_congr h (by rw [State.stackTop_mem, State.fetch_mem, State.fetch_mem])
  rw [State.callSubroutine]
  exact Inv_congr (h1.pushWord _) (by rw [State.setPC_mem, State.readBus_mem])

theorem State.interruptEntry_mem (s : State) (vec : Word) (b counted : Bool) :
    (s.interruptEntry vec b counted).mem = ((s.pushWord s.PC).push (s.pack b)).mem := by
  rw [State.interruptEntry, State.fetchVector, State.setPC_mem]
  cases counted
  · rw [if_neg Bool.false_ne_true, State.enterFlags_mem]
  · rw [if_pos rfl, State.readBus_mem, State.readBus_mem, State.enterFlags_mem]

theorem Inv.interruptEntry {s : State} (h : Inv s) (vec : Word) (b counted : Bool) : Inv (s.interruptEntry vec b counted) :=
  Inv_congr ((h.pushWord s.PC).push (s.pack b)) (s.interruptEntry_mem vec b counted)

theorem State.bitFlags_mem (s : State) (o : DataOperand) (m : Byte) : (s.bitFlags o m).mem = s.mem := by
  cases o <;> rfl

/-- The two accesses of an implied instruction. -/
theorem Inv.implied {s : State} (h : Inv s) : Inv s.implied :=
  Inv_congr h (by simp only [State.implied, State.dummy, State.readBus_mem, State.fetch_mem])

/-- What holds of a state and is kept by every step holds of every state reached from it. -/
theorem RunsTo.keeps {P : State → Prop} (hstep : ∀ s t, P s → Machine.step s = .next t → P t) {s t : State} (h : RunsTo s t)
    (hs : P s) : P t := by
  induction h with
  | refl => exact hs
  | step _ hu ih => exact hstep _ _ ih hu

end Sys2Proof.Machine
end

