-- ==== Sys2Proof/Laws/PerInstr.lean ====
section
/-! SUPPORT. Statements made of each instruction as syntax. -/

namespace Sys2Proof.Laws.EncodedLength

/-- The encoding of an instruction has as many bytes as its addressing mode says (30_encoding.md R91, R92). -/
def Statement (i : Instr) : Prop := ∀ bytes, encode i = some bytes → bytes.length = i.length

theorem of_operandBytes {i : Instr} (h : (operandBytes i).length + 1 = i.length) : Statement i := by
  intro bytes hb
  unfold encode at hb
  cases ho : opcodeOf i with
  | none => rw [ho] at hb; cases hb
  | some op => rw [ho] at hb; cases hb; exact h

theorem data (o : DataOperand) : o.bytes.length + 1 = o.mode.length := by cases o <;> rfl
theorem rmw (o : RmwOperand) : o.bytes.length + 1 = o.mode.length := by cases o <;> rfl
theorem jump (o : JumpOperand) : o.bytes.length + 1 = o.mode.length := by cases o <;> rfl

theorem lda (o : DataOperand) : Statement (.lda o) := of_operandBytes (data o)
theorem ldx (o : DataOperand) : Statement (.ldx o) := of_operandBytes (data o)
theorem ldy (o : DataOperand) : Statement (.ldy o) := of_operandBytes (data o)
theorem and (o : DataOperand) : Statement (.and o) := of_operandBytes (data o)
theorem ora (o : DataOperand) : Statement (.ora o) := of_operandBytes (data o)
theorem eor (o : DataOperand) : Statement (.eor o) := of_operandBytes (data o)
theorem cmp (o : DataOperand) : Statement (.cmp o) := of_operandBytes (data o)
theorem cpx (o : DataOperand) : Statement (.cpx o) := of_operandBytes (data o)
theorem cpy (o : DataOperand) : Statement (.cpy o) := of_operandBytes (data o)
theorem bit (o : DataOperand) : Statement (.bit o) := of_operandBytes (data o)
theorem adc (o : DataOperand) : Statement (.adc o) := of_operandBytes (data o)
theorem sbc (o : DataOperand) : Statement (.sbc o) := of_operandBytes (data o)
theorem sta (o : DataOperand) : Statement (.sta o) := of_operandBytes (data o)
theorem stx (o : DataOperand) : Statement (.stx o) := of_operandBytes (data o)
theorem sty (o : DataOperand) : Statement (.sty o) := of_operandBytes (data o)
theorem stz (o : DataOperand) : Statement (.stz o) := of_operandBytes (data o)
theorem asl (o : RmwOperand) : Statement (.asl o) := of_operandBytes (rmw o)
theorem lsr (o : RmwOperand) : Statement (.lsr o) := of_operandBytes (rmw o)
theorem rol (o : RmwOperand) : Statement (.rol o) := of_operandBytes (rmw o)
theorem ror (o : RmwOperand) : Statement (.ror o) := of_operandBytes (rmw o)
theorem inc (o : RmwOperand) : Statement (.inc o) := of_operandBytes (rmw o)
theorem dec (o : RmwOperand) : Statement (.dec o) := of_operandBytes (rmw o)
theorem tsb (o : RmwOperand) : Statement (.tsb o) := of_operandBytes (rmw o)
theorem trb (o : RmwOperand) : Statement (.trb o) := of_operandBytes (rmw o)
theorem rmb0 (zp : Byte) : Statement (.rmb0 zp) := of_operandBytes rfl
theorem rmb1 (zp : Byte) : Statement (.rmb1 zp) := of_operandBytes rfl
theorem rmb2 (zp : Byte) : Statement (.rmb2 zp) := of_operandBytes rfl
theorem rmb3 (zp : Byte) : Statement (.rmb3 zp) := of_operandBytes rfl
theorem rmb4 (zp : Byte) : Statement (.rmb4 zp) := of_operandBytes rfl
theorem rmb5 (zp : Byte) : Statement (.rmb5 zp) := of_operandBytes rfl
theorem rmb6 (zp : Byte) : Statement (.rmb6 zp) := of_operandBytes rfl
theorem rmb7 (zp : Byte) : Statement (.rmb7 zp) := of_operandBytes rfl
theorem smb0 (zp : Byte) : Statement (.smb0 zp) := of_operandBytes rfl
theorem smb1 (zp : Byte) : Statement (.smb1 zp) := of_operandBytes rfl
theorem smb2 (zp : Byte) : Statement (.smb2 zp) := of_operandBytes rfl
theorem smb3 (zp : Byte) : Statement (.smb3 zp) := of_operandBytes rfl
theorem smb4 (zp : Byte) : Statement (.smb4 zp) := of_operandBytes rfl
theorem smb5 (zp : Byte) : Statement (.smb5 zp) := of_operandBytes rfl
theorem smb6 (zp : Byte) : Statement (.smb6 zp) := of_operandBytes rfl
theorem smb7 (zp : Byte) : Statement (.smb7 zp) := of_operandBytes rfl
theorem bpl (off : Byte) : Statement (.bpl off) := of_operandBytes rfl
theorem bmi (off : Byte) : Statement (.bmi off) := of_operandBytes rfl
theorem bvc (off : Byte) : Statement (.bvc off) := of_operandBytes rfl
theorem bvs (off : Byte) : Statement (.bvs off) := of_operandBytes rfl
theorem bcc (off : Byte) : Statement (.bcc off) := of_operandBytes rfl
theorem bcs (off : Byte) : Statement (.bcs off) := of_operandBytes rfl
theorem bne (off : Byte) : Statement (.bne off) := of_operandBytes rfl
theorem beq (off : Byte) : Statement (.beq off) := of_operandBytes rfl
theorem bra (off : Byte) : Statement (.bra off) := of_operandBytes rfl
theorem bbr0 (zp off : Byte) : Statement (.bbr0 zp off) := of_operandBytes rfl
theorem bbr1 (zp off : Byte) : Statement (.bbr1 zp off) := of_operandBytes rfl
theorem bbr2 (zp off : Byte) : Statement (.bbr2 zp off) := of_operandBytes rfl
theorem bbr3 (zp off : Byte) : Statement (.bbr3 zp off) := of_operandBytes rfl
theorem bbr4 (zp off : Byte) : Statement (.bbr4 zp off) := of_operandBytes rfl
theorem bbr5 (zp off : Byte) : Statement (.bbr5 zp off) := of_operandBytes rfl
theorem bbr6 (zp off : Byte) : Statement (.bbr6 zp off) := of_operandBytes rfl
theorem bbr7 (zp off : Byte) : Statement (.bbr7 zp off) := of_operandBytes rfl
theorem bbs0 (zp off : Byte) : Statement (.bbs0 zp off) := of_operandBytes rfl
theorem bbs1 (zp off : Byte) : Statement (.bbs1 zp off) := of_operandBytes rfl
theorem bbs2 (zp off : Byte) : Statement (.bbs2 zp off) := of_operandBytes rfl
theorem bbs3 (zp off : Byte) : Statement (.bbs3 zp off) := of_operandBytes rfl
theorem bbs4 (zp off : Byte) : Statement (.bbs4 zp off) := of_operandBytes rfl
theorem bbs5 (zp off : Byte) : Statement (.bbs5 zp off) := of_operandBytes rfl
theorem bbs6 (zp off : Byte) : Statement (.bbs6 zp off) := of_operandBytes rfl
theorem bbs7 (zp off : Byte) : Statement (.bbs7 zp off) := of_operandBytes rfl
theorem jmp (o : JumpOperand) : Statement (.jmp o) := of_operandBytes (jump o)
theorem pha : Statement .pha := of_operandBytes rfl
theorem php : Statement .php := of_operandBytes rfl
theorem phx : Statement .phx := of_operandBytes rfl
theorem phy : Statement .phy := of_operandBytes rfl
theorem pla : Statement .pla := of_operandBytes rfl
theorem plp : Statement .plp := of_operandBytes rfl
theorem plx : Statement .plx := of_operandBytes rfl
theorem ply : Statement .ply := of_operandBytes rfl
theorem jsr (target : Word) : Statement (.jsr target) := of_operandBytes rfl
theorem rts : Statement .rts := of_operandBytes rfl
theorem brk : Statement .brk := of_operandBytes rfl
theorem rti : Statement .rti := of_operandBytes rfl
theorem tax : Statement .tax := of_operandBytes rfl
theorem tay : Statement .tay := of_operandBytes rfl
theorem txa : Statement .txa := of_operandBytes rfl
theorem tya : Statement .tya := of_operandBytes rfl
theorem tsx : Statement .tsx := of_operandBytes rfl
theorem txs : Statement .txs := of_operandBytes rfl
theorem inx : Statement .inx := of_operandBytes rfl
theorem iny : Statement .iny := of_operandBytes rfl
theorem dex : Statement .dex := of_operandBytes rfl
theorem dey : Statement .dey := of_operandBytes rfl
theorem clc : Statement .clc := of_operandBytes rfl
theorem sec : Statement .sec := of_operandBytes rfl
theorem cli : Statement .cli := of_operandBytes rfl
theorem sei : Statement .sei := of_operandBytes rfl
theorem cld : Statement .cld := of_operandBytes rfl
theorem sed : Statement .sed := of_operandBytes rfl
theorem clv : Statement .clv := of_operandBytes rfl
theorem nop : Statement .nop := of_operandBytes rfl
theorem wai : Statement .wai := of_operandBytes rfl
theorem stp : Statement .stp := of_operandBytes rfl
theorem illegal (opcode : Byte) : Statement (.illegal opcode) := of_operandBytes rfl

end Sys2Proof.Laws.EncodedLength
end

