-- ==== Sys2Proof/Tests/Slice0.lean ====
section
/-! SUPPORT. Tests. Every expected result comes from the spec: the refused terms from 30_encoding.md R97, R98; the decoded bytes from
spec/opcode_table.json; a step test named for a vector (V41_09, E4, F4 ...) from 95_test_vectors.md and 96_test_vectors_continued.md;
the others by hand from the rule named beside them. -/

namespace Sys2Proof.Tests

open Sys2Proof.Machine

/-! ## Well-formedness: each check refuses an ill-formed term -/

/-- R97: no such mode for the mnemonic on any variant. -/
theorem test_wellFormed_mode : [Instr.stz (.imm 0x00), .lda (.zpy 0x00), .ldx (.zpx 0x00), .sta (.imm 0x00), .stx (.abx 0x1234),
    .cpx (.abx 0x1234), .bit (.izx 0x00), .tsb .acc, .trb (.zpx 0x00)].all (fun i => !i.wellFormed {}) = true := by decide

/-- R96: CMOS65C02 has it and NMOS6502 has not. -/
theorem test_wellFormed_variant : [Instr.bra 0x00, .lda (.izp 0x00), .bit (.imm 0x00), .inc .acc, .jmp (.iax 0x1234), .phx, .wai,
    .rmb0 0x00].all (fun i => i.wellFormed {} && !i.wellFormed { variant := .nmos6502 }) = true := by decide

/-- R9, R98: BBRn and BBSn need P2. -/
theorem test_wellFormed_bitBranch : [Instr.bbr0 0x00 0x00, .bbs7 0x00 0x00].all
    (fun i => i.wellFormed {} && !i.wellFormed { cmosBbrBbs := false }) = true := by decide

/-- R98: the illegal marker holds an illegal byte of the variant. -/
theorem test_wellFormed_illegal : Instr.wellFormed {} (.illegal 0xA9) = false ∧ Instr.wellFormed {} (.illegal 0x02) = true ∧
    Instr.wellFormed {} (.illegal 0x80) = false ∧ Instr.wellFormed { variant := .nmos6502 } (.illegal 0x80) = true := by decide

/-! ## Decoding: every row of spec/opcode_table.json of CMOS65C02, the opcode byte bit by bit; operand bytes 0x34, 0x12 -/

/-- Each byte list decodes to its instruction and nothing is left. -/
def decodesAs (cfg : Config) (l : List (List Byte × Instr)) : Bool :=
  l.all fun p => match decode cfg p.1 with
    | .ok (i, rest) => i = p.2 && rest.isEmpty
    | .error _ => false

theorem test_decode_loads_logic_compares_1 : decodesAs {} [
    ([0b10100001, 0x34], .lda (.izx 0x34)), ([0b10100101, 0x34], .lda (.zp 0x34)), ([0b10101001, 0x34], .lda (.imm 0x34)),
    ([0b10101101, 0x34, 0x12], .lda (.abs 0x1234)), ([0b10110001, 0x34], .lda (.izy 0x34)),
    ([0b10110010, 0x34], .lda (.izp 0x34)), ([0b10110101, 0x34], .lda (.zpx 0x34)),
    ([0b10111001, 0x34, 0x12], .lda (.aby 0x1234)), ([0b10111101, 0x34, 0x12], .lda (.abx 0x1234)),
    ([0b10100010, 0x34], .ldx (.imm 0x34)), ([0b10100110, 0x34], .ldx (.zp 0x34)),
    ([0b10101110, 0x34, 0x12], .ldx (.abs 0x1234)), ([0b10110110, 0x34], .ldx (.zpy 0x34)),
    ([0b10111110, 0x34, 0x12], .ldx (.aby 0x1234)), ([0b10100000, 0x34], .ldy (.imm 0x34)),
    ([0b10100100, 0x34], .ldy (.zp 0x34)), ([0b10101100, 0x34, 0x12], .ldy (.abs 0x1234)),
    ([0b10110100, 0x34], .ldy (.zpx 0x34)), ([0b10111100, 0x34, 0x12], .ldy (.abx 0x1234)),
    ([0b00100001, 0x34], .and (.izx 0x34)), ([0b00100101, 0x34], .and (.zp 0x34)), ([0b00101001, 0x34], .and (.imm 0x34)),
    ([0b00101101, 0x34, 0x12], .and (.abs 0x1234)), ([0b00110001, 0x34], .and (.izy 0x34))] = true := by decide

theorem test_decode_loads_logic_compares_2 : decodesAs {} [
    ([0b00110010, 0x34], .and (.izp 0x34)), ([0b00110101, 0x34], .and (.zpx 0x34)),
    ([0b00111001, 0x34, 0x12], .and (.aby 0x1234)), ([0b00111101, 0x34, 0x12], .and (.abx 0x1234)),
    ([0b00000001, 0x34], .ora (.izx 0x34)), ([0b00000101, 0x34], .ora (.zp 0x34)), ([0b00001001, 0x34], .ora (.imm 0x34)),
    ([0b00001101, 0x34, 0x12], .ora (.abs 0x1234)), ([0b00010001, 0x34], .ora (.izy 0x34)),
    ([0b00010010, 0x34], .ora (.izp 0x34)), ([0b00010101, 0x34], .ora (.zpx 0x34)),
    ([0b00011001, 0x34, 0x12], .ora (.aby 0x1234)), ([0b00011101, 0x34, 0x12], .ora (.abx 0x1234)),
    ([0b01000001, 0x34], .eor (.izx 0x34)), ([0b01000101, 0x34], .eor (.zp 0x34)), ([0b01001001, 0x34], .eor (.imm 0x34)),
    ([0b01001101, 0x34, 0x12], .eor (.abs 0x1234)), ([0b01010001, 0x34], .eor (.izy 0x34)),
    ([0b01010010, 0x34], .eor (.izp 0x34)), ([0b01010101, 0x34], .eor (.zpx 0x34)),
    ([0b01011001, 0x34, 0x12], .eor (.aby 0x1234)), ([0b01011101, 0x34, 0x12], .eor (.abx 0x1234)),
    ([0b11000001, 0x34], .cmp (.izx 0x34)), ([0b11000101, 0x34], .cmp (.zp 0x34))] = true := by decide

theorem test_decode_loads_logic_compares_3 : decodesAs {} [
    ([0b11001001, 0x34], .cmp (.imm 0x34)), ([0b11001101, 0x34, 0x12], .cmp (.abs 0x1234)),
    ([0b11010001, 0x34], .cmp (.izy 0x34)), ([0b11010010, 0x34], .cmp (.izp 0x34)),
    ([0b11010101, 0x34], .cmp (.zpx 0x34)), ([0b11011001, 0x34, 0x12], .cmp (.aby 0x1234)),
    ([0b11011101, 0x34, 0x12], .cmp (.abx 0x1234)), ([0b11100000, 0x34], .cpx (.imm 0x34)),
    ([0b11100100, 0x34], .cpx (.zp 0x34)), ([0b11101100, 0x34, 0x12], .cpx (.abs 0x1234)),
    ([0b11000000, 0x34], .cpy (.imm 0x34)), ([0b11000100, 0x34], .cpy (.zp 0x34)),
    ([0b11001100, 0x34, 0x12], .cpy (.abs 0x1234)), ([0b00100100, 0x34], .bit (.zp 0x34)),
    ([0b00101100, 0x34, 0x12], .bit (.abs 0x1234)), ([0b00110100, 0x34], .bit (.zpx 0x34)),
    ([0b00111100, 0x34, 0x12], .bit (.abx 0x1234)), ([0b10001001, 0x34], .bit (.imm 0x34))] = true := by decide

theorem test_decode_adc_sbc : decodesAs {} [
    ([0b01100001, 0x34], .adc (.izx 0x34)), ([0b01100101, 0x34], .adc (.zp 0x34)), ([0b01101001, 0x34], .adc (.imm 0x34)),
    ([0b01101101, 0x34, 0x12], .adc (.abs 0x1234)), ([0b01110001, 0x34], .adc (.izy 0x34)),
    ([0b01110010, 0x34], .adc (.izp 0x34)), ([0b01110101, 0x34], .adc (.zpx 0x34)),
    ([0b01111001, 0x34, 0x12], .adc (.aby 0x1234)), ([0b01111101, 0x34, 0x12], .adc (.abx 0x1234)),
    ([0b11100001, 0x34], .sbc (.izx 0x34)), ([0b11100101, 0x34], .sbc (.zp 0x34)), ([0b11101001, 0x34], .sbc (.imm 0x34)),
    ([0b11101101, 0x34, 0x12], .sbc (.abs 0x1234)), ([0b11110001, 0x34], .sbc (.izy 0x34)),
    ([0b11110010, 0x34], .sbc (.izp 0x34)), ([0b11110101, 0x34], .sbc (.zpx 0x34)),
    ([0b11111001, 0x34, 0x12], .sbc (.aby 0x1234)), ([0b11111101, 0x34, 0x12], .sbc (.abx 0x1234))] = true := by decide

theorem test_decode_stores : decodesAs {} [
    ([0b10000001, 0x34], .sta (.izx 0x34)), ([0b10000101, 0x34], .sta (.zp 0x34)),
    ([0b10001101, 0x34, 0x12], .sta (.abs 0x1234)), ([0b10010001, 0x34], .sta (.izy 0x34)),
    ([0b10010010, 0x34], .sta (.izp 0x34)), ([0b10010101, 0x34], .sta (.zpx 0x34)),
    ([0b10011001, 0x34, 0x12], .sta (.aby 0x1234)), ([0b10011101, 0x34, 0x12], .sta (.abx 0x1234)),
    ([0b10000110, 0x34], .stx (.zp 0x34)), ([0b10001110, 0x34, 0x12], .stx (.abs 0x1234)),
    ([0b10010110, 0x34], .stx (.zpy 0x34)), ([0b10000100, 0x34], .sty (.zp 0x34)),
    ([0b10001100, 0x34, 0x12], .sty (.abs 0x1234)), ([0b10010100, 0x34], .sty (.zpx 0x34)),
    ([0b01100100, 0x34], .stz (.zp 0x34)), ([0b01110100, 0x34], .stz (.zpx 0x34)),
    ([0b10011100, 0x34, 0x12], .stz (.abs 0x1234)), ([0b10011110, 0x34, 0x12], .stz (.abx 0x1234))] = true := by decide

theorem test_decode_rmw_1 : decodesAs {} [
    ([0b00000110, 0x34], .asl (.zp 0x34)), ([0b00001010], .asl .acc), ([0b00001110, 0x34, 0x12], .asl (.abs 0x1234)),
    ([0b00010110, 0x34], .asl (.zpx 0x34)), ([0b00011110, 0x34, 0x12], .asl (.abx 0x1234)),
    ([0b01000110, 0x34], .lsr (.zp 0x34)), ([0b01001010], .lsr .acc), ([0b01001110, 0x34, 0x12], .lsr (.abs 0x1234)),
    ([0b01010110, 0x34], .lsr (.zpx 0x34)), ([0b01011110, 0x34, 0x12], .lsr (.abx 0x1234)),
    ([0b00100110, 0x34], .rol (.zp 0x34)), ([0b00101010], .rol .acc), ([0b00101110, 0x34, 0x12], .rol (.abs 0x1234)),
    ([0b00110110, 0x34], .rol (.zpx 0x34)), ([0b00111110, 0x34, 0x12], .rol (.abx 0x1234)),
    ([0b01100110, 0x34], .ror (.zp 0x34)), ([0b01101010], .ror .acc), ([0b01101110, 0x34, 0x12], .ror (.abs 0x1234)),
    ([0b01110110, 0x34], .ror (.zpx 0x34)), ([0b01111110, 0x34, 0x12], .ror (.abx 0x1234)), ([0b00011010], .inc .acc),
    ([0b11100110, 0x34], .inc (.zp 0x34)), ([0b11101110, 0x34, 0x12], .inc (.abs 0x1234)),
    ([0b11110110, 0x34], .inc (.zpx 0x34))] = true := by decide

theorem test_decode_rmw_2 : decodesAs {} [
    ([0b11111110, 0x34, 0x12], .inc (.abx 0x1234)), ([0b00111010], .dec .acc), ([0b11000110, 0x34], .dec (.zp 0x34)),
    ([0b11001110, 0x34, 0x12], .dec (.abs 0x1234)), ([0b11010110, 0x34], .dec (.zpx 0x34)),
    ([0b11011110, 0x34, 0x12], .dec (.abx 0x1234)), ([0b00000100, 0x34], .tsb (.zp 0x34)),
    ([0b00001100, 0x34, 0x12], .tsb (.abs 0x1234)), ([0b00010100, 0x34], .trb (.zp 0x34)),
    ([0b00011100, 0x34, 0x12], .trb (.abs 0x1234))] = true := by decide

theorem test_decode_rmb_smb : decodesAs {} [
    ([0b00000111, 0x34], .rmb0 0x34), ([0b00010111, 0x34], .rmb1 0x34), ([0b00100111, 0x34], .rmb2 0x34),
    ([0b00110111, 0x34], .rmb3 0x34), ([0b01000111, 0x34], .rmb4 0x34), ([0b01010111, 0x34], .rmb5 0x34),
    ([0b01100111, 0x34], .rmb6 0x34), ([0b01110111, 0x34], .rmb7 0x34), ([0b10000111, 0x34], .smb0 0x34),
    ([0b10010111, 0x34], .smb1 0x34), ([0b10100111, 0x34], .smb2 0x34), ([0b10110111, 0x34], .smb3 0x34),
    ([0b11000111, 0x34], .smb4 0x34), ([0b11010111, 0x34], .smb5 0x34), ([0b11100111, 0x34], .smb6 0x34),
    ([0b11110111, 0x34], .smb7 0x34)] = true := by decide

theorem test_decode_branches : decodesAs {} [
    ([0b00010000, 0x34], .bpl 0x34), ([0b00110000, 0x34], .bmi 0x34), ([0b01010000, 0x34], .bvc 0x34),
    ([0b01110000, 0x34], .bvs 0x34), ([0b10010000, 0x34], .bcc 0x34), ([0b10110000, 0x34], .bcs 0x34),
    ([0b11010000, 0x34], .bne 0x34), ([0b11110000, 0x34], .beq 0x34), ([0b10000000, 0x34], .bra 0x34)] = true := by decide

theorem test_decode_bit_branches : decodesAs {} [
    ([0b00001111, 0x34, 0x12], .bbr0 0x34 0x12), ([0b00011111, 0x34, 0x12], .bbr1 0x34 0x12),
    ([0b00101111, 0x34, 0x12], .bbr2 0x34 0x12), ([0b00111111, 0x34, 0x12], .bbr3 0x34 0x12),
    ([0b01001111, 0x34, 0x12], .bbr4 0x34 0x12), ([0b01011111, 0x34, 0x12], .bbr5 0x34 0x12),
    ([0b01101111, 0x34, 0x12], .bbr6 0x34 0x12), ([0b01111111, 0x34, 0x12], .bbr7 0x34 0x12),
    ([0b10001111, 0x34, 0x12], .bbs0 0x34 0x12), ([0b10011111, 0x34, 0x12], .bbs1 0x34 0x12),
    ([0b10101111, 0x34, 0x12], .bbs2 0x34 0x12), ([0b10111111, 0x34, 0x12], .bbs3 0x34 0x12),
    ([0b11001111, 0x34, 0x12], .bbs4 0x34 0x12), ([0b11011111, 0x34, 0x12], .bbs5 0x34 0x12),
    ([0b11101111, 0x34, 0x12], .bbs6 0x34 0x12), ([0b11111111, 0x34, 0x12], .bbs7 0x34 0x12)] = true := by decide

theorem test_decode_jumps_stack : decodesAs {} [
    ([0b01001100, 0x34, 0x12], .jmp (.abs 0x1234)), ([0b01101100, 0x34, 0x12], .jmp (.ind 0x1234)),
    ([0b01111100, 0x34, 0x12], .jmp (.iax 0x1234)), ([0b00100000, 0x34, 0x12], .jsr 0x1234), ([0b01100000], .rts),
    ([0b01000000], .rti), ([0b00000000], .brk), ([0b01001000], .pha), ([0b00001000], .php), ([0b11011010], .phx),
    ([0b01011010], .phy), ([0b01101000], .pla), ([0b00101000], .plp), ([0b11111010], .plx), ([0b01111010], .ply)] = true := by decide

theorem test_decode_implied : decodesAs {} [
    ([0b10101010], .tax), ([0b10101000], .tay), ([0b10001010], .txa), ([0b10011000], .tya), ([0b10111010], .tsx),
    ([0b10011010], .txs), ([0b11101000], .inx), ([0b11001000], .iny), ([0b11001010], .dex), ([0b10001000], .dey),
    ([0b00011000], .clc), ([0b00111000], .sec), ([0b01011000], .cli), ([0b01111000], .sei), ([0b11011000], .cld),
    ([0b11111000], .sed), ([0b10111000], .clv), ([0b11101010], .nop), ([0b11001011], .wai), ([0b11011011], .stp)] = true := by decide

/-- R98: bytes that are illegal on both variants, and three that only NMOS6502 lacks. -/
theorem test_decode_illegal : decodesAs {} [([0b00000010], .illegal 0x02), ([0b01000100], .illegal 0x44), ([0b11111100], .illegal 0xFC)]
    ∧ decodesAs { variant := .nmos6502 } [([0b00000010], .illegal 0x02), ([0b10000000], .illegal 0x80), ([0b11111111], .illegal 0xFF)]
    ∧ decodesAs { cmosBbrBbs := false } [([0b00001111], .illegal 0x0F), ([0b10000000, 0x34], .bra 0x34)] := by decide

/-- No bytes, and an instruction cut short, are refused by name. -/
theorem test_decode_refused : decode {} [] = .error .noBytes ∧ decode {} [0xAD, 0x34] = .error (.truncated 0xAD) :=
  ⟨rfl, rfl⟩

/-- How many of the 256 bytes are illegal. -/
def illegalCount (cfg : Config) : Nat := ((List.range 256).filter fun n => isIllegalByte cfg (BitVec.ofNat 8 n)).length

/-- R96, R98: 151 instructions on NMOS6502, 212 on CMOS65C02, 196 without BBRn and BBSn. -/
theorem test_illegalCount : illegalCount { variant := .nmos6502 } = 256 - 151 ∧ illegalCount {} = 256 - 212 ∧
    illegalCount { cmosBbrBbs := false } = 256 - 196 := by decide +kernel

/-- The table's word: the second byte is bits 15..8, and the operand bytes the row has no bits for are zero. -/
theorem test_decodeTableWord : decodeTableWord 8 0xAD = some (.lda (.abs 0x0000)) ∧
    decodeTableWord 16 0x34A9 = some (.lda (.imm 0x34)) ∧ decodeTableWord 24 0x123420 = some (.jsr 0x1234) := by decide

/-- The placed word is the instruction that the next step runs. -/
theorem test_withFetchWord : fetchInstr (State.reset.withFetchWord 16 0x34A9) = .lda (.imm 0x34) ∧
    (State.reset.withFetchWord 16 0x34A9).host = [] ∧
    fetchInstr (State.reset.withFetchWord 24 0x10FF77) = .rmb7 0xFF := by decide

/-! ## Steps -/

/-- A state: variant, PC, S, A, X, Y, the packed status and memory. -/
def st (v : Variant) (pc : Word) (s a x y p : Byte) (m : List (Nat × Byte)) : State :=
  { State.reset with
    A := a, X := x, Y := y, S := s, PC := pc, cfg := { variant := v }
    C := bitOf p 0, Z := bitOf p 1, I := bitOf p 2, D := bitOf p 3, V := bitOf p 6, N := bitOf p 7
    mem := m.foldl (fun m e => memWrite m e.1 e.2) [] }

/-- A counted read and a counted write. -/
def r (a : Word) (v : Byte) : BusAccess := ⟨a, v, .read⟩
def w (a : Word) (v : Byte) : BusAccess := ⟨a, v, .write⟩

/-- One step goes to this state by these accesses. -/
def goesTo (s t : State) (l : List BusAccess) : Bool :=
  match step s with
  | .next u => decide (u = { t with trace := l, cycles := l.length, instrs := 1 })
  | .fault _ | .refused _ => false

/-- One step ends in this fault. -/
def faultsWith (s : State) (f : Fault) : Bool :=
  match step s with
  | .fault g => decide (g = f)
  | .next _ | .refused _ => false

theorem test_lda_V41_09_nmos :
    let m := [(0x0020, 0xEE), (0x0024, 0xF8), (0x0025, 0x40), (0x0200, 0xA1), (0x0201, 0x20), (0x40F8, 0x88)]
    goesTo (st .nmos6502 0x0200 0xFD 0x00 0x04 0x00 0x20 m) (st .nmos6502 0x0202 0xFD 0x88 0x04 0x00 0xA0 m)
      [r 0x0200 0xA1, r 0x0201 0x20, r 0x0020 0xEE, r 0x0024 0xF8, r 0x0025 0x40, r 0x40F8 0x88] = true := by decide
theorem test_lda_V41_10_cmos :
    let m := [(0x0000, 0x12), (0x00FF, 0x34), (0x0100, 0xEE), (0x0200, 0xA1), (0x0201, 0xFB), (0x1234, 0x5A)]
    goesTo (st .cmos65C02 0x0200 0xFD 0x00 0x04 0x00 0x20 m) (st .cmos65C02 0x0202 0xFD 0x5A 0x04 0x00 0x20 m)
      [r 0x0200 0xA1, r 0x0201 0xFB, r 0x00FB 0x00, r 0x00FF 0x34, r 0x0000 0x12, r 0x1234 0x5A] = true := by decide
theorem test_ldx_V41_16_nmos :
    let m := [(0x0200, 0xBE), (0x0201, 0xF0), (0x0202, 0x12), (0x1300, 0x00)]
    goesTo (st .nmos6502 0x0200 0xFD 0x00 0x55 0x10 0x20 m) (st .nmos6502 0x0203 0xFD 0x00 0x00 0x10 0x22 m)
      [r 0x0200 0xBE, r 0x0201 0xF0, r 0x0202 0x12, r 0x1200 0x00, r 0x1300 0x00] = true := by decide
theorem test_ldx_V41_15_cmos :
    let m := [(0x0008, 0x7E), (0x0010, 0x01), (0x0200, 0xB6), (0x0201, 0x10)]
    goesTo (st .cmos65C02 0x0200 0xFD 0x00 0x00 0xF8 0x20 m) (st .cmos65C02 0x0202 0xFD 0x00 0x7E 0xF8 0x20 m)
      [r 0x0200 0xB6, r 0x0201 0x10, r 0x0010 0x01, r 0x0008 0x7E] = true := by decide
theorem test_ldy_V41_17_nmos :
    let m := [(0x0200, 0xBC), (0x0201, 0x34), (0x0202, 0x12), (0x1235, 0xF0)]
    goesTo (st .nmos6502 0x0200 0xFD 0x00 0x01 0x00 0x20 m) (st .nmos6502 0x0203 0xFD 0x00 0x01 0xF0 0xA0 m)
      [r 0x0200 0xBC, r 0x0201 0x34, r 0x0202 0x12, r 0x1235 0xF0] = true := by decide
theorem test_and_V41_18_cmos :
    let m := [(0x0200, 0x29), (0x0201, 0x0F)]
    goesTo (st .cmos65C02 0x0200 0xFD 0xF0 0x00 0x00 0xA1 m) (st .cmos65C02 0x0202 0xFD 0x00 0x00 0x00 0x23 m)
      [r 0x0200 0x29, r 0x0201 0x0F] = true := by decide
theorem test_ora_V41_19_nmos :
    let m := [(0x0010, 0x80), (0x0200, 0x05), (0x0201, 0x10)]
    goesTo (st .nmos6502 0x0200 0xFD 0x01 0x00 0x00 0x20 m) (st .nmos6502 0x0202 0xFD 0x81 0x00 0x00 0xA0 m)
      [r 0x0200 0x05, r 0x0201 0x10, r 0x0010 0x80] = true := by decide
theorem test_eor_V41_20_cmos :
    let m := [(0x0200, 0x49), (0x0201, 0xFF)]
    goesTo (st .cmos65C02 0x0200 0xFD 0xFF 0x00 0x00 0x60 m) (st .cmos65C02 0x0202 0xFD 0x00 0x00 0x00 0x62 m)
      [r 0x0200 0x49, r 0x0201 0xFF] = true := by decide
theorem test_cmp_V41_21_nmos :
    let m := [(0x0200, 0xC9), (0x0201, 0x30)]
    goesTo (st .nmos6502 0x0200 0xFD 0x30 0x00 0x00 0x20 m) (st .nmos6502 0x0202 0xFD 0x30 0x00 0x00 0x23 m)
      [r 0x0200 0xC9, r 0x0201 0x30] = true := by decide
theorem test_cmp_V41_22_cmos :
    let m := [(0x0200, 0xC9), (0x0201, 0x31)]
    goesTo (st .cmos65C02 0x0200 0xFD 0x30 0x00 0x00 0x21 m) (st .cmos65C02 0x0202 0xFD 0x30 0x00 0x00 0xA0 m)
      [r 0x0200 0xC9, r 0x0201 0x31] = true := by decide
theorem test_cpx_V41_24_nmos :
    let m := [(0x0010, 0x10), (0x0200, 0xE4), (0x0201, 0x10)]
    goesTo (st .nmos6502 0x0200 0xFD 0x00 0x80 0x00 0x20 m) (st .nmos6502 0x0202 0xFD 0x00 0x80 0x00 0x21 m)
      [r 0x0200 0xE4, r 0x0201 0x10, r 0x0010 0x10] = true := by decide
theorem test_cpy_V41_25_cmos :
    let m := [(0x0200, 0xC0), (0x0201, 0xFF)]
    goesTo (st .cmos65C02 0x0200 0xFD 0x00 0x00 0x00 0x20 m) (st .cmos65C02 0x0202 0xFD 0x00 0x00 0x00 0x20 m)
      [r 0x0200 0xC0, r 0x0201 0xFF] = true := by decide
theorem test_bit_V41_27_nmos :
    let m := [(0x0200, 0x2C), (0x0201, 0x34), (0x0202, 0x12), (0x1234, 0x41)]
    goesTo (st .nmos6502 0x0200 0xFD 0x01 0x00 0x00 0xA2 m) (st .nmos6502 0x0203 0xFD 0x01 0x00 0x00 0x60 m)
      [r 0x0200 0x2C, r 0x0201 0x34, r 0x0202 0x12, r 0x1234 0x41] = true := by decide
theorem test_bit_V41_29_cmos :
    let m := [(0x0014, 0x80), (0x0200, 0x34), (0x0201, 0x10)]
    goesTo (st .cmos65C02 0x0200 0xFD 0x80 0x04 0x00 0x20 m) (st .cmos65C02 0x0202 0xFD 0x80 0x04 0x00 0xA0 m)
      [r 0x0200 0x34, r 0x0201 0x10, r 0x0010 0x00, r 0x0014 0x80] = true := by decide
theorem test_adc_V42_T3_nmos :
    let m := [(0x0200, 0x7D), (0x0201, 0xFE), (0x0202, 0x12), (0x1302, 0x25)]
    goesTo (st .nmos6502 0x0200 0xFD 0x25 0x04 0x00 0x28 m) (st .nmos6502 0x0203 0xFD 0x50 0x04 0x00 0x28 m)
      [r 0x0200 0x7D, r 0x0201 0xFE, r 0x0202 0x12, r 0x1202 0x00, r 0x1302 0x25] = true := by decide
theorem test_adc_V42_T3_cmos :
    let m := [(0x0200, 0x7D), (0x0201, 0xFE), (0x0202, 0x12), (0x1302, 0x25)]
    goesTo (st .cmos65C02 0x0200 0xFD 0x25 0x04 0x00 0x28 m) (st .cmos65C02 0x0203 0xFD 0x50 0x04 0x00 0x28 m)
      [r 0x0200 0x7D, r 0x0201 0xFE, r 0x0202 0x12, r 0x1202 0x00, r 0x1302 0x25, r 0x1302 0x25] = true := by decide
theorem test_sbc_V42_T5_nmos :
    let m := [(0x0020, 0x00), (0x0021, 0x30), (0x0200, 0xF1), (0x0201, 0x20), (0x3001, 0x01)]
    goesTo (st .nmos6502 0x0200 0xFD 0x00 0x00 0x01 0x21 m) (st .nmos6502 0x0202 0xFD 0xFF 0x00 0x01 0xA0 m)
      [r 0x0200 0xF1, r 0x0201 0x20, r 0x0020 0x00, r 0x0021 0x30, r 0x3001 0x01] = true := by decide
theorem test_sbc_V42_T5_cmos :
    let m := [(0x0020, 0x00), (0x0021, 0x30), (0x0200, 0xF1), (0x0201, 0x20), (0x3001, 0x01)]
    goesTo (st .cmos65C02 0x0200 0xFD 0x00 0x00 0x01 0x21 m) (st .cmos65C02 0x0202 0xFD 0xFF 0x00 0x01 0xA0 m)
      [r 0x0200 0xF1, r 0x0201 0x20, r 0x0020 0x00, r 0x0021 0x30, r 0x3001 0x01] = true := by decide
theorem test_sta_V43_05_nmos :
    let m := [(0x0024, 0xF8), (0x0025, 0x40), (0x0200, 0x81), (0x0201, 0x20)]
    goesTo (st .nmos6502 0x0200 0xFD 0x42 0x04 0x00 0x20 m) (st .nmos6502 0x0202 0xFD 0x42 0x04 0x00 0x20 (m ++ [(0x40F8, 0x42)]))
      [r 0x0200 0x81, r 0x0201 0x20, r 0x0020 0x00, r 0x0024 0xF8, r 0x0025 0x40, w 0x40F8 0x42] = true := by decide
theorem test_sta_V43_06_cmos :
    let m := [(0x0020, 0x80), (0x0021, 0x12), (0x0200, 0x91), (0x0201, 0x20)]
    goesTo (st .cmos65C02 0x0200 0xFD 0x42 0x00 0x10 0x20 m) (st .cmos65C02 0x0202 0xFD 0x42 0x00 0x10 0x20 (m ++ [(0x1290, 0x42)]))
      [r 0x0200 0x91, r 0x0201 0x20, r 0x0020 0x80, r 0x0021 0x12, r 0x1290 0x00, w 0x1290 0x42] = true := by decide
theorem test_stx_V43_10_nmos :
    let m := [(0x0200, 0x96), (0x0201, 0x10)]
    goesTo (st .nmos6502 0x0200 0xFD 0x00 0x55 0xF8 0x20 m) (st .nmos6502 0x0202 0xFD 0x00 0x55 0xF8 0x20 (m ++ [(0x0008, 0x55)]))
      [r 0x0200 0x96, r 0x0201 0x10, r 0x0010 0x00, w 0x0008 0x55] = true := by decide
theorem test_stx_V43_12_cmos :
    let m := [(0x0200, 0x8E), (0x0201, 0x34), (0x0202, 0x12)]
    goesTo (st .cmos65C02 0x0200 0xFD 0x00 0x00 0x00 0x20 m) (st .cmos65C02 0x0203 0xFD 0x00 0x00 0x00 0x20 m)
      [r 0x0200 0x8E, r 0x0201 0x34, r 0x0202 0x12, w 0x1234 0x00] = true := by decide
theorem test_sty_V43_11_nmos :
    let m := [(0x0200, 0x94), (0x0201, 0x10)]
    goesTo (st .nmos6502 0x0200 0xFD 0x00 0x01 0x66 0x20 m) (st .nmos6502 0x0202 0xFD 0x00 0x01 0x66 0x20 (m ++ [(0x0011, 0x66)]))
      [r 0x0200 0x94, r 0x0201 0x10, r 0x0010 0x00, w 0x0011 0x66] = true := by decide
theorem test_stz_V43_09_cmos :
    let m := [(0x0200, 0x9E), (0x0201, 0x34), (0x0202, 0x12), (0x1238, 0xAA)]
    goesTo (st .cmos65C02 0x0200 0xFD 0x00 0x04 0x00 0x20 m) (st .cmos65C02 0x0203 0xFD 0x00 0x04 0x00 0x20 (m ++ [(0x1238, 0x00)]))
      [r 0x0200 0x9E, r 0x0201 0x34, r 0x0202 0x12, r 0x1238 0xAA, w 0x1238 0x00] = true := by decide
theorem test_asl_V44_03_nmos :
    let m := [(0x0024, 0x81), (0x0200, 0x16), (0x0201, 0x20)]
    goesTo (st .nmos6502 0x0200 0xFD 0x00 0x04 0x00 0x20 m) (st .nmos6502 0x0202 0xFD 0x00 0x04 0x00 0x21 (m ++ [(0x0024, 0x02)]))
      [r 0x0200 0x16, r 0x0201 0x20, r 0x0020 0x00, r 0x0024 0x81, w 0x0024 0x81, w 0x0024 0x02] = true := by decide
theorem test_asl_V44_10_cmos :
    let m := [(0x0200, 0x0A)]
    goesTo (st .cmos65C02 0x0200 0xFD 0x81 0x00 0x00 0x20 m) (st .cmos65C02 0x0201 0xFD 0x02 0x00 0x00 0x21 m)
      [r 0x0200 0x0A, r 0x0201 0x00] = true := by decide
theorem test_lsr_V44_04_nmos :
    let m := [(0x0200, 0x4E), (0x0201, 0x34), (0x0202, 0x12), (0x1234, 0x01)]
    goesTo (st .nmos6502 0x0200 0xFD 0x00 0x00 0x00 0xA0 m) (st .nmos6502 0x0203 0xFD 0x00 0x00 0x00 0x23 (m ++ [(0x1234, 0x00)]))
      [r 0x0200 0x4E, r 0x0201 0x34, r 0x0202 0x12, r 0x1234 0x01, w 0x1234 0x01, w 0x1234 0x00] = true := by decide
theorem test_rol_V44_05_cmos :
    let m := [(0x0200, 0x2E), (0x0201, 0x34), (0x0202, 0x12), (0x1234, 0x40)]
    goesTo (st .cmos65C02 0x0200 0xFD 0x00 0x00 0x00 0x21 m) (st .cmos65C02 0x0203 0xFD 0x00 0x00 0x00 0xA0 (m ++ [(0x1234, 0x81)]))
      [r 0x0200 0x2E, r 0x0201 0x34, r 0x0202 0x12, r 0x1234 0x40, w 0x1234 0x40, w 0x1234 0x81] = true := by decide
theorem test_ror_V44_06_nmos :
    let m := [(0x0020, 0x01), (0x0200, 0x66), (0x0201, 0x20)]
    goesTo (st .nmos6502 0x0200 0xFD 0x00 0x00 0x00 0x21 m) (st .nmos6502 0x0202 0xFD 0x00 0x00 0x00 0xA1 (m ++ [(0x0020, 0x80)]))
      [r 0x0200 0x66, r 0x0201 0x20, r 0x0020 0x01, w 0x0020 0x01, w 0x0020 0x80] = true := by decide
theorem test_ror_V44_07_cmos :
    let m := [(0x0020, 0x01), (0x0200, 0x66), (0x0201, 0x20)]
    goesTo (st .cmos65C02 0x0200 0xFD 0x00 0x00 0x00 0x20 m) (st .cmos65C02 0x0202 0xFD 0x00 0x00 0x00 0x23 (m ++ [(0x0020, 0x00)]))
      [r 0x0200 0x66, r 0x0201 0x20, r 0x0020 0x01, w 0x0020 0x01, w 0x0020 0x00] = true := by decide
theorem test_inc_V44_09_nmos :
    let m := [(0x0200, 0xFE), (0x0201, 0x34), (0x0202, 0x12), (0x1238, 0x7F)]
    goesTo (st .nmos6502 0x0200 0xFD 0x00 0x04 0x00 0x20 m) (st .nmos6502 0x0203 0xFD 0x00 0x04 0x00 0xA0 (m ++ [(0x1238, 0x80)]))
      [r 0x0200 0xFE, r 0x0201 0x34, r 0x0202 0x12, r 0x1238 0x7F, r 0x1238 0x7F, w 0x1238 0x7F, w 0x1238 0x80] = true := by decide
theorem test_inc_V44_01_cmos :
    let m := [(0x0020, 0xFF), (0x0200, 0xE6), (0x0201, 0x20)]
    goesTo (st .cmos65C02 0x0200 0xFD 0x00 0x00 0x00 0x21 m) (st .cmos65C02 0x0202 0xFD 0x00 0x00 0x00 0x23 (m ++ [(0x0020, 0x00)]))
      [r 0x0200 0xE6, r 0x0201 0x20, r 0x0020 0xFF, w 0x0020 0xFF, w 0x0020 0x00] = true := by decide
theorem test_dec_V44_08_nmos :
    let m := [(0x0200, 0xDE), (0x0201, 0xFE), (0x0202, 0x12), (0x1302, 0x00)]
    goesTo (st .nmos6502 0x0200 0xFD 0x00 0x04 0x00 0x20 m) (st .nmos6502 0x0203 0xFD 0x00 0x04 0x00 0xA0 (m ++ [(0x1302, 0xFF)]))
      [r 0x0200 0xDE, r 0x0201 0xFE, r 0x0202 0x12, r 0x1202 0x00, r 0x1302 0x00, w 0x1302 0x00, w 0x1302 0xFF] = true := by decide
theorem test_dec_V44_02_cmos :
    let m := [(0x0020, 0x00), (0x0200, 0xC6), (0x0201, 0x20)]
    goesTo (st .cmos65C02 0x0200 0xFD 0x00 0x00 0x00 0x20 m) (st .cmos65C02 0x0202 0xFD 0x00 0x00 0x00 0xA0 (m ++ [(0x0020, 0xFF)]))
      [r 0x0200 0xC6, r 0x0201 0x20, r 0x0020 0x00, w 0x0020 0x00, w 0x0020 0xFF] = true := by decide
theorem test_tsb_V44_17_cmos :
    let m := [(0x0200, 0x0C), (0x0201, 0x34), (0x0202, 0x12), (0x1234, 0x81)]
    goesTo (st .cmos65C02 0x0200 0xFD 0x01 0x00 0x00 0x22 m) (st .cmos65C02 0x0203 0xFD 0x01 0x00 0x00 0x20 m)
      [r 0x0200 0x0C, r 0x0201 0x34, r 0x0202 0x12, r 0x1234 0x81, w 0x1234 0x81, w 0x1234 0x81] = true := by decide
theorem test_trb_V44_19_cmos :
    let m := [(0x0200, 0x1C), (0x0201, 0x34), (0x0202, 0x12), (0x1234, 0xF0)]
    goesTo (st .cmos65C02 0x0200 0xFD 0x0F 0x00 0x00 0x20 m) (st .cmos65C02 0x0203 0xFD 0x0F 0x00 0x00 0x22 m)
      [r 0x0200 0x1C, r 0x0201 0x34, r 0x0202 0x12, r 0x1234 0xF0, w 0x1234 0xF0, w 0x1234 0xF0] = true := by decide
theorem test_rmb3_V44_20_cmos :
    let m := [(0x0010, 0xFF), (0x0200, 0x37), (0x0201, 0x10)]
    goesTo (st .cmos65C02 0x0200 0xFD 0x00 0x00 0x00 0xE3 m) (st .cmos65C02 0x0202 0xFD 0x00 0x00 0x00 0xE3 (m ++ [(0x0010, 0xF7)]))
      [r 0x0200 0x37, r 0x0201 0x10, r 0x0010 0xFF, w 0x0010 0xFF, w 0x0010 0xF7] = true := by decide
theorem test_smb0_V44_22_cmos :
    let m := [(0x0010, 0x01), (0x0200, 0x87), (0x0201, 0x10)]
    goesTo (st .cmos65C02 0x0200 0xFD 0x00 0x00 0x00 0x20 m) (st .cmos65C02 0x0202 0xFD 0x00 0x00 0x00 0x20 m)
      [r 0x0200 0x87, r 0x0201 0x10, r 0x0010 0x01, w 0x0010 0x01, w 0x0010 0x01] = true := by decide
theorem test_smb2_F2_cmos :
    let m := [(0x0010, 0x00), (0x0200, 0xA7), (0x0201, 0x10)]
    goesTo (st .cmos65C02 0x0200 0xFD 0x00 0x00 0x00 0x20 m) (st .cmos65C02 0x0202 0xFD 0x00 0x00 0x00 0x20 (m ++ [(0x0010, 0x04)]))
      [r 0x0200 0xA7, r 0x0201 0x10, r 0x0010 0x00, w 0x0010 0x00, w 0x0010 0x04] = true := by decide
theorem test_smb7_V44_21_cmos :
    let m := [(0x0010, 0x00), (0x0200, 0xF7), (0x0201, 0x10)]
    goesTo (st .cmos65C02 0x0200 0xFD 0x00 0x00 0x00 0x20 m) (st .cmos65C02 0x0202 0xFD 0x00 0x00 0x00 0x20 (m ++ [(0x0010, 0x80)]))
      [r 0x0200 0xF7, r 0x0201 0x10, r 0x0010 0x00, w 0x0010 0x00, w 0x0010 0x80] = true := by decide
theorem test_bpl_V45_08_nmos :
    let m := [(0x0200, 0x10), (0x0201, 0x00)]
    goesTo (st .nmos6502 0x0200 0xFD 0x00 0x00 0x00 0x20 m) (st .nmos6502 0x0202 0xFD 0x00 0x00 0x00 0x20 m)
      [r 0x0200 0x10, r 0x0201 0x00, r 0x0202 0x00] = true := by decide
theorem test_bmi_V45_07_cmos :
    let m := [(0x0200, 0x30), (0x0201, 0xFE)]
    goesTo (st .cmos65C02 0x0200 0xFD 0x00 0x00 0x00 0xA0 m) (st .cmos65C02 0x0200 0xFD 0x00 0x00 0x00 0xA0 m)
      [r 0x0200 0x30, r 0x0201 0xFE, r 0x0202 0x00] = true := by decide
theorem test_bvc_V45_09_nmos :
    let m := [(0x0300, 0x50), (0x0301, 0x10)]
    goesTo (st .nmos6502 0x0300 0xFD 0x00 0x00 0x00 0x20 m) (st .nmos6502 0x0312 0xFD 0x00 0x00 0x00 0x20 m)
      [r 0x0300 0x50, r 0x0301 0x10, r 0x0302 0x00] = true := by decide
theorem test_bvs_V45_10_cmos :
    let m := [(0x0300, 0x70), (0x0301, 0x10)]
    goesTo (st .cmos65C02 0x0300 0xFD 0x00 0x00 0x00 0x20 m) (st .cmos65C02 0x0302 0xFD 0x00 0x00 0x00 0x20 m)
      [r 0x0300 0x70, r 0x0301 0x10] = true := by decide
theorem test_bcc_V45_06_nmos :
    let m := [(0x0200, 0x90), (0x0201, 0x7F)]
    goesTo (st .nmos6502 0x0200 0xFD 0x00 0x00 0x00 0x20 m) (st .nmos6502 0x0281 0xFD 0x00 0x00 0x00 0x20 m)
      [r 0x0200 0x90, r 0x0201 0x7F, r 0x0202 0x00] = true := by decide
theorem test_bcs_V45_05_cmos :
    let m := [(0x0200, 0xB0), (0x0201, 0x80)]
    goesTo (st .cmos65C02 0x0200 0xFD 0x00 0x00 0x00 0x21 m) (st .cmos65C02 0x0182 0xFD 0x00 0x00 0x00 0x21 m)
      [r 0x0200 0xB0, r 0x0201 0x80, r 0x0202 0x00, r 0x0202 0x00] = true := by decide
theorem test_bne_V45_04_nmos :
    let m := [(0x0300, 0xD0), (0x0301, 0xFB)]
    goesTo (st .nmos6502 0x0300 0xFD 0x00 0x00 0x00 0x20 m) (st .nmos6502 0x02FD 0xFD 0x00 0x00 0x00 0x20 m)
      [r 0x0300 0xD0, r 0x0301 0xFB, r 0x0302 0x00, r 0x03FD 0x00] = true := by decide
theorem test_bne_V45_02_cmos :
    let m := [(0x0200, 0xD0), (0x0201, 0x05)]
    goesTo (st .cmos65C02 0x0200 0xFD 0x00 0x00 0x00 0x20 m) (st .cmos65C02 0x0207 0xFD 0x00 0x00 0x00 0x20 m)
      [r 0x0200 0xD0, r 0x0201 0x05, r 0x0202 0x00] = true := by decide
theorem test_beq_V45_03_nmos :
    let m := [(0x02FD, 0xF0), (0x02FE, 0x05)]
    goesTo (st .nmos6502 0x02FD 0xFD 0x00 0x00 0x00 0x22 m) (st .nmos6502 0x0304 0xFD 0x00 0x00 0x00 0x22 m)
      [r 0x02FD 0xF0, r 0x02FE 0x05, r 0x02FF 0x00, r 0x0204 0x00] = true := by decide
theorem test_beq_V45_11_cmos :
    let m := [(0xFFFD, 0xF0), (0xFFFE, 0x05)]
    goesTo (st .cmos65C02 0xFFFD 0xFD 0x00 0x00 0x00 0x22 m) (st .cmos65C02 0x0004 0xFD 0x00 0x00 0x00 0x22 m)
      [r 0xFFFD 0xF0, r 0xFFFE 0x05, r 0xFFFF 0x00, r 0xFFFF 0x00] = true := by decide
theorem test_bra_V45_12_cmos :
    let m := [(0x0200, 0x80), (0x0201, 0x02)]
    goesTo (st .cmos65C02 0x0200 0xFD 0x00 0x00 0x00 0x20 m) (st .cmos65C02 0x0204 0xFD 0x00 0x00 0x00 0x20 m)
      [r 0x0200 0x80, r 0x0201 0x02, r 0x0202 0x00] = true := by decide
theorem test_bbr0_V45_13_cmos :
    let m := [(0x0010, 0xFE), (0x0200, 0x0F), (0x0201, 0x10), (0x0202, 0x04)]
    goesTo (st .cmos65C02 0x0200 0xFD 0x00 0x00 0x00 0x20 m) (st .cmos65C02 0x0207 0xFD 0x00 0x00 0x00 0x20 m)
      [r 0x0200 0x0F, r 0x0201 0x10, r 0x0010 0xFE, r 0x0010 0xFE, r 0x0202 0x04, r 0x0203 0x00] = true := by decide
theorem test_bbs3_V45_17_cmos :
    let m := [(0x0010, 0x08), (0x02FB, 0xBF), (0x02FC, 0x10), (0x02FD, 0x02)]
    goesTo (st .cmos65C02 0x02FB 0xFD 0x00 0x00 0x00 0x20 m) (st .cmos65C02 0x0300 0xFD 0x00 0x00 0x00 0x20 m)
      [r 0x02FB 0xBF, r 0x02FC 0x10, r 0x0010 0x08, r 0x0010 0x08, r 0x02FD 0x02, r 0x02FE 0x00, r 0x02FE 0x00] = true := by decide
theorem test_bbs7_V45_15_cmos :
    let m := [(0x0010, 0x80), (0x0200, 0xFF), (0x0201, 0x10), (0x0202, 0xFD)]
    goesTo (st .cmos65C02 0x0200 0xFD 0x00 0x00 0x00 0x20 m) (st .cmos65C02 0x0200 0xFD 0x00 0x00 0x00 0x20 m)
      [r 0x0200 0xFF, r 0x0201 0x10, r 0x0010 0x80, r 0x0010 0x80, r 0x0202 0xFD, r 0x0203 0x00] = true := by decide
theorem test_jmp_E4_nmos :
    let m := [(0x0200, 0x6C), (0x0201, 0xFF), (0x0202, 0x30), (0x3000, 0x50), (0x30FF, 0x40), (0x3100, 0x60)]
    goesTo (st .nmos6502 0x0200 0xFD 0x00 0x00 0x00 0x20 m) (st .nmos6502 0x5040 0xFD 0x00 0x00 0x00 0x20 m)
      [r 0x0200 0x6C, r 0x0201 0xFF, r 0x0202 0x30, r 0x30FF 0x40, r 0x3000 0x50] = true := by decide
theorem test_jmp_E4_cmos :
    let m := [(0x0200, 0x6C), (0x0201, 0xFF), (0x0202, 0x30), (0x3000, 0x50), (0x30FF, 0x40), (0x3100, 0x60)]
    goesTo (st .cmos65C02 0x0200 0xFD 0x00 0x00 0x00 0x20 m) (st .cmos65C02 0x6040 0xFD 0x00 0x00 0x00 0x20 m)
      [r 0x0200 0x6C, r 0x0201 0xFF, r 0x0202 0x30, r 0x30FF 0x40, r 0x3100 0x60] = true := by decide
theorem test_pha_V46_01_nmos :
    let m := [(0x0200, 0x48)]
    goesTo (st .nmos6502 0x0200 0xFD 0x42 0x00 0x00 0x20 m) (st .nmos6502 0x0201 0xFC 0x42 0x00 0x00 0x20 (m ++ [(0x01FD, 0x42)]))
      [r 0x0200 0x48, r 0x0201 0x00, w 0x01FD 0x42] = true := by decide
theorem test_php_V46_02_cmos :
    let m := [(0x0200, 0x08)]
    goesTo (st .cmos65C02 0x0200 0xFD 0x00 0x00 0x00 0xA9 m) (st .cmos65C02 0x0201 0xFC 0x00 0x00 0x00 0xA9 (m ++ [(0x01FD, 0xB9)]))
      [r 0x0200 0x08, r 0x0201 0x00, w 0x01FD 0xB9] = true := by decide
theorem test_phx_V46_03_cmos :
    let m := [(0x0200, 0xDA)]
    goesTo (st .cmos65C02 0x0200 0xFD 0x00 0x77 0x00 0x20 m) (st .cmos65C02 0x0201 0xFC 0x00 0x77 0x00 0x20 (m ++ [(0x01FD, 0x77)]))
      [r 0x0200 0xDA, r 0x0201 0x00, w 0x01FD 0x77] = true := by decide
theorem test_phy_V46_04_cmos :
    let m := [(0x0200, 0x5A)]
    goesTo (st .cmos65C02 0x0200 0xFD 0x00 0x00 0x88 0x20 m) (st .cmos65C02 0x0201 0xFC 0x00 0x00 0x88 0x20 (m ++ [(0x01FD, 0x88)]))
      [r 0x0200 0x5A, r 0x0201 0x00, w 0x01FD 0x88] = true := by decide
theorem test_pla_V46_06_nmos :
    let m := [(0x01FC, 0xEE), (0x01FD, 0x00), (0x0200, 0x68)]
    goesTo (st .nmos6502 0x0200 0xFC 0x55 0x00 0x00 0x20 m) (st .nmos6502 0x0201 0xFD 0x00 0x00 0x00 0x22 m)
      [r 0x0200 0x68, r 0x0201 0x00, r 0x01FC 0xEE, r 0x01FD 0x00] = true := by decide
theorem test_pla_V46_07_cmos :
    let m := [(0x0100, 0x80), (0x01FF, 0xEE), (0x0200, 0x68)]
    goesTo (st .cmos65C02 0x0200 0xFF 0x00 0x00 0x00 0x20 m) (st .cmos65C02 0x0201 0x00 0x80 0x00 0x00 0xA0 m)
      [r 0x0200 0x68, r 0x0201 0x00, r 0x01FF 0xEE, r 0x0100 0x80] = true := by decide
theorem test_plp_V46_08_nmos :
    let m := [(0x01FD, 0xFF), (0x0200, 0x28)]
    goesTo (st .nmos6502 0x0200 0xFC 0x00 0x00 0x00 0x20 m) (st .nmos6502 0x0201 0xFD 0x00 0x00 0x00 0xEF m)
      [r 0x0200 0x28, r 0x0201 0x00, r 0x01FC 0x00, r 0x01FD 0xFF] = true := by decide
theorem test_plp_V46_09_cmos :
    let m := [(0x01FD, 0x00), (0x0200, 0x28)]
    goesTo (st .cmos65C02 0x0200 0xFC 0x00 0x00 0x00 0xEF m) (st .cmos65C02 0x0201 0xFD 0x00 0x00 0x00 0x20 m)
      [r 0x0200 0x28, r 0x0201 0x00, r 0x01FC 0x00, r 0x01FD 0x00] = true := by decide
theorem test_plx_V46_10_cmos :
    let m := [(0x01FD, 0x80), (0x0200, 0xFA)]
    goesTo (st .cmos65C02 0x0200 0xFC 0x00 0x00 0x00 0x20 m) (st .cmos65C02 0x0201 0xFD 0x00 0x80 0x00 0xA0 m)
      [r 0x0200 0xFA, r 0x0201 0x00, r 0x01FC 0x00, r 0x01FD 0x80] = true := by decide
theorem test_jsr_E5_nmos :
    let m := [(0x01FD, 0xEE), (0x0200, 0x20), (0x0201, 0x34), (0x0202, 0x12)]
    goesTo (st .nmos6502 0x0200 0xFD 0x00 0x00 0x00 0x20 m) (st .nmos6502 0x1234 0xFB 0x00 0x00 0x00 0x20 (m ++ [(0x01FD, 0x02), (0x01FC, 0x02)]))
      [r 0x0200 0x20, r 0x0201 0x34, r 0x01FD 0xEE, w 0x01FD 0x02, w 0x01FC 0x02, r 0x0202 0x12] = true := by decide
theorem test_jsr_V46_13_cmos :
    let m := [(0x0200, 0x20), (0x0201, 0x34), (0x0202, 0x12)]
    goesTo (st .cmos65C02 0x0200 0xFD 0x00 0x00 0x00 0x20 m) (st .cmos65C02 0x1234 0xFB 0x00 0x00 0x00 0x20 (m ++ [(0x01FC, 0x02), (0x01FD, 0x02)]))
      [r 0x0200 0x20, r 0x0201 0x34, r 0x01FD 0x00, w 0x01FD 0x02, w 0x01FC 0x02, r 0x0202 0x12] = true := by decide
theorem test_rts_V46_14_nmos :
    let m := [(0x01FC, 0x02), (0x01FD, 0x02), (0x1234, 0x60)]
    goesTo (st .nmos6502 0x1234 0xFB 0x00 0x00 0x00 0x20 m) (st .nmos6502 0x0203 0xFD 0x00 0x00 0x00 0x20 m)
      [r 0x1234 0x60, r 0x1235 0x00, r 0x01FB 0x00, r 0x01FC 0x02, r 0x01FD 0x02, r 0x0202 0x00] = true := by decide
theorem test_rts_V46_16_cmos :
    let m := [(0x01FC, 0xFF), (0x01FD, 0xFF), (0x0200, 0x60)]
    goesTo (st .cmos65C02 0x0200 0xFB 0x00 0x00 0x00 0x20 m) (st .cmos65C02 0x0000 0xFD 0x00 0x00 0x00 0x20 m)
      [r 0x0200 0x60, r 0x0201 0x00, r 0x01FB 0x00, r 0x01FC 0xFF, r 0x01FD 0xFF, r 0xFFFF 0x00] = true := by decide
theorem test_brk_V46_11_nmos :
    let m := [(0x0200, 0x00), (0x0201, 0xEA), (0xFFFE, 0x00), (0xFFFF, 0x90)]
    goesTo (st .nmos6502 0x0200 0xFD 0x00 0x00 0x00 0x29 m) (st .nmos6502 0x9000 0xFA 0x00 0x00 0x00 0x2D (m ++ [(0x01FB, 0x39), (0x01FC, 0x02), (0x01FD, 0x02)]))
      [r 0x0200 0x00, r 0x0201 0xEA, w 0x01FD 0x02, w 0x01FC 0x02, w 0x01FB 0x39, r 0xFFFE 0x00, r 0xFFFF 0x90] = true := by decide
theorem test_brk_V46_11_cmos :
    let m := [(0x0200, 0x00), (0x0201, 0xEA), (0xFFFE, 0x00), (0xFFFF, 0x90)]
    goesTo (st .cmos65C02 0x0200 0xFD 0x00 0x00 0x00 0x29 m) (st .cmos65C02 0x9000 0xFA 0x00 0x00 0x00 0x25 (m ++ [(0x01FB, 0x39), (0x01FC, 0x02), (0x01FD, 0x02)]))
      [r 0x0200 0x00, r 0x0201 0xEA, w 0x01FD 0x02, w 0x01FC 0x02, w 0x01FB 0x39, r 0xFFFE 0x00, r 0xFFFF 0x90] = true := by decide
theorem test_rti_V46_12_nmos :
    let m := [(0x01FB, 0x31), (0x01FC, 0x02), (0x01FD, 0x02), (0x0200, 0x40)]
    goesTo (st .nmos6502 0x0200 0xFA 0x00 0x00 0x00 0x24 m) (st .nmos6502 0x0202 0xFD 0x00 0x00 0x00 0x21 m)
      [r 0x0200 0x40, r 0x0201 0x00, r 0x01FA 0x00, r 0x01FB 0x31, r 0x01FC 0x02, r 0x01FD 0x02] = true := by decide
theorem test_rti_V46_12_cmos :
    let m := [(0x01FB, 0x31), (0x01FC, 0x02), (0x01FD, 0x02), (0x0200, 0x40)]
    goesTo (st .cmos65C02 0x0200 0xFA 0x00 0x00 0x00 0x24 m) (st .cmos65C02 0x0202 0xFD 0x00 0x00 0x00 0x21 m)
      [r 0x0200 0x40, r 0x0201 0x00, r 0x01FA 0x00, r 0x01FB 0x31, r 0x01FC 0x02, r 0x01FD 0x02] = true := by decide
theorem test_tax_V47_02_cmos :
    let m := [(0x0200, 0xAA)]
    goesTo (st .cmos65C02 0x0200 0xFD 0x00 0x55 0x00 0x20 m) (st .cmos65C02 0x0201 0xFD 0x00 0x00 0x00 0x22 m)
      [r 0x0200 0xAA, r 0x0201 0x00] = true := by decide
theorem test_tay_V47_03_nmos :
    let m := [(0x0200, 0xA8)]
    goesTo (st .nmos6502 0x0200 0xFD 0x80 0x00 0x00 0x20 m) (st .nmos6502 0x0201 0xFD 0x80 0x00 0x80 0xA0 m)
      [r 0x0200 0xA8, r 0x0201 0x00] = true := by decide
theorem test_txa_V47_04_cmos :
    let m := [(0x0200, 0x8A)]
    goesTo (st .cmos65C02 0x0200 0xFD 0x00 0x7F 0x00 0xA2 m) (st .cmos65C02 0x0201 0xFD 0x7F 0x7F 0x00 0x20 m)
      [r 0x0200 0x8A, r 0x0201 0x00] = true := by decide
theorem test_tya_V47_05_nmos :
    let m := [(0x0200, 0x98)]
    goesTo (st .nmos6502 0x0200 0xFD 0x00 0x00 0xFF 0x20 m) (st .nmos6502 0x0201 0xFD 0xFF 0x00 0xFF 0xA0 m)
      [r 0x0200 0x98, r 0x0201 0x00] = true := by decide
theorem test_tsx_V47_06_cmos :
    let m := [(0x0200, 0xBA)]
    goesTo (st .cmos65C02 0x0200 0xFD 0x00 0x00 0x00 0x20 m) (st .cmos65C02 0x0201 0xFD 0x00 0xFD 0x00 0xA0 m)
      [r 0x0200 0xBA, r 0x0201 0x00] = true := by decide
theorem test_txs_V47_07_nmos :
    let m := [(0x0200, 0x9A)]
    goesTo (st .nmos6502 0x0200 0xFD 0x00 0x00 0x00 0xA0 m) (st .nmos6502 0x0201 0x00 0x00 0x00 0x00 0xA0 m)
      [r 0x0200 0x9A, r 0x0201 0x00] = true := by decide
theorem test_inx_V47_08_cmos :
    let m := [(0x0200, 0xE8)]
    goesTo (st .cmos65C02 0x0200 0xFD 0x00 0xFF 0x00 0x20 m) (st .cmos65C02 0x0201 0xFD 0x00 0x00 0x00 0x22 m)
      [r 0x0200 0xE8, r 0x0201 0x00] = true := by decide
theorem test_iny_V47_09_nmos :
    let m := [(0x0200, 0xC8)]
    goesTo (st .nmos6502 0x0200 0xFD 0x00 0x00 0x7F 0x20 m) (st .nmos6502 0x0201 0xFD 0x00 0x00 0x80 0xA0 m)
      [r 0x0200 0xC8, r 0x0201 0x00] = true := by decide
theorem test_dex_V47_10_cmos :
    let m := [(0x0200, 0xCA)]
    goesTo (st .cmos65C02 0x0200 0xFD 0x00 0x00 0x00 0x20 m) (st .cmos65C02 0x0201 0xFD 0x00 0xFF 0x00 0xA0 m)
      [r 0x0200 0xCA, r 0x0201 0x00] = true := by decide
theorem test_dey_V47_11_nmos :
    let m := [(0x0200, 0x88)]
    goesTo (st .nmos6502 0x0200 0xFD 0x00 0x00 0x01 0x20 m) (st .nmos6502 0x0201 0xFD 0x00 0x00 0x00 0x22 m)
      [r 0x0200 0x88, r 0x0201 0x00] = true := by decide
theorem test_clc_V47_12_cmos :
    let m := [(0x0200, 0x18)]
    goesTo (st .cmos65C02 0x0200 0xFD 0x00 0x00 0x00 0xEF m) (st .cmos65C02 0x0201 0xFD 0x00 0x00 0x00 0xEE m)
      [r 0x0200 0x18, r 0x0201 0x00] = true := by decide
theorem test_sec_V47_13_nmos :
    let m := [(0x0200, 0x38)]
    goesTo (st .nmos6502 0x0200 0xFD 0x00 0x00 0x00 0x20 m) (st .nmos6502 0x0201 0xFD 0x00 0x00 0x00 0x21 m)
      [r 0x0200 0x38, r 0x0201 0x00] = true := by decide
theorem test_cli_V47_14_cmos :
    let m := [(0x0200, 0x58)]
    goesTo (st .cmos65C02 0x0200 0xFD 0x00 0x00 0x00 0xEF m) (st .cmos65C02 0x0201 0xFD 0x00 0x00 0x00 0xEB m)
      [r 0x0200 0x58, r 0x0201 0x00] = true := by decide
theorem test_sei_V47_15_nmos :
    let m := [(0x0200, 0x78)]
    goesTo (st .nmos6502 0x0200 0xFD 0x00 0x00 0x00 0x20 m) (st .nmos6502 0x0201 0xFD 0x00 0x00 0x00 0x24 m)
      [r 0x0200 0x78, r 0x0201 0x00] = true := by decide
theorem test_cld_V47_16_cmos :
    let m := [(0x0200, 0xD8)]
    goesTo (st .cmos65C02 0x0200 0xFD 0x00 0x00 0x00 0xEF m) (st .cmos65C02 0x0201 0xFD 0x00 0x00 0x00 0xE7 m)
      [r 0x0200 0xD8, r 0x0201 0x00] = true := by decide
theorem test_sed_V47_17_nmos :
    let m := [(0x0200, 0xF8)]
    goesTo (st .nmos6502 0x0200 0xFD 0x00 0x00 0x00 0x20 m) (st .nmos6502 0x0201 0xFD 0x00 0x00 0x00 0x28 m)
      [r 0x0200 0xF8, r 0x0201 0x00] = true := by decide
theorem test_clv_V47_18_cmos :
    let m := [(0x0200, 0xB8)]
    goesTo (st .cmos65C02 0x0200 0xFD 0x00 0x00 0x00 0xEF m) (st .cmos65C02 0x0201 0xFD 0x00 0x00 0x00 0xAF m)
      [r 0x0200 0xB8, r 0x0201 0x00] = true := by decide
theorem test_nop_V47_01_nmos :
    let m := [(0x0200, 0xEA), (0x0201, 0x55)]
    goesTo (st .nmos6502 0x0200 0xFD 0x00 0x00 0x00 0x20 m) (st .nmos6502 0x0201 0xFD 0x00 0x00 0x00 0x20 m)
      [r 0x0200 0xEA, r 0x0201 0x55] = true := by decide
theorem test_nop_V47_19_cmos :
    let m := [(0xFFFF, 0xEA)]
    goesTo (st .cmos65C02 0xFFFF 0xFD 0x00 0x00 0x00 0x20 m) (st .cmos65C02 0x0000 0xFD 0x00 0x00 0x00 0x20 m)
      [r 0xFFFF 0xEA, r 0x0000 0x00] = true := by decide
theorem test_wai_F4_cmos : faultsWith (st .cmos65C02 0x0200 0xFD 0x00 0x00 0x00 0x20 [(0x0200, 0xCB)]) (.unsupportedInstruction 0x0200 0xCB [r 0x0200 0xCB]) = true := by decide
theorem test_stp_F5_cmos : faultsWith (st .cmos65C02 0x0200 0xFD 0x00 0x00 0x00 0x20 [(0x0200, 0xDB)]) (.unsupportedInstruction 0x0200 0xDB [r 0x0200 0xDB]) = true := by decide

/-- The byte at 0x0010 after one step of the two-byte instruction with opcode `op` and operand 0x10. -/
def byteAfter (op before : Byte) : Option Byte :=
  match step (st .cmos65C02 0x0200 0xFD 0x00 0x00 0x00 0x20 [(0x0010, before), (0x0200, op), (0x0201, 0x10)]) with
  | .next t => some (t.peek 0x0010)
  | _ => none

/-- R220, R99: RMBn, opcode 0x07 + 0x10*n, takes 1 << n out of 0xFF. -/
theorem test_rmb : [(0x07, 0xFE), (0x17, 0xFD), (0x27, 0xFB), (0x37, 0xF7), (0x47, 0xEF), (0x57, 0xDF), (0x67, 0xBF),
    (0x77, 0x7F)].all (fun p => byteAfter p.1 0xFF == some p.2) = true := by decide

/-- R221, R99: SMBn, opcode 0x87 + 0x10*n, puts 1 << n into 0x00. -/
theorem test_smb : [(0x87, 0x01), (0x97, 0x02), (0xA7, 0x04), (0xB7, 0x08), (0xC7, 0x10), (0xD7, 0x20), (0xE7, 0x40),
    (0xF7, 0x80)].all (fun p => byteAfter p.1 0x00 == some p.2) = true := by decide

/-- PC after one step of BBRn or BBSn 0x10, displacement 0x10, at 0x0200, with the byte at 0x0010. -/
def pcAfter (op m : Byte) : Option Word :=
  match step (st .cmos65C02 0x0200 0xFD 0x00 0x00 0x00 0x20 [(0x0010, m), (0x0200, op), (0x0201, 0x10), (0x0202, 0x10)]) with
  | .next t => some t.PC
  | _ => none

/-- R250, R99: BBRn, opcode 0x0F + 0x10*n, branches when bit n is 0 and not when only bit n is 1. -/
theorem test_bbr : [(0x0F, 0x01), (0x1F, 0x02), (0x2F, 0x04), (0x3F, 0x08), (0x4F, 0x10), (0x5F, 0x20), (0x6F, 0x40), (0x7F, 0x80)].all
    (fun p => pcAfter p.1 (p.2 ^^^ 0xFF) == some 0x0213 && pcAfter p.1 p.2 == some 0x0203) = true := by decide

/-- R251, R99: BBSn, opcode 0x8F + 0x10*n, branches when only bit n is 1 and not when only bit n is 0. -/
theorem test_bbs : [(0x8F, 0x01), (0x9F, 0x02), (0xAF, 0x04), (0xBF, 0x08), (0xCF, 0x10), (0xDF, 0x20), (0xEF, 0x40), (0xFF, 0x80)].all
    (fun p => pcAfter p.1 p.2 == some 0x0213 && pcAfter p.1 (p.2 ^^^ 0xFF) == some 0x0203) = true := by decide

/-- R278: PLY with S = 0xFF wraps to 0x0100; N from the byte. -/
theorem test_ply :
    let m := [(0x0100, 0x80), (0x0200, 0x7A)]
    goesTo (st .cmos65C02 0x0200 0xFF 0x00 0x00 0x00 0x20 m) (st .cmos65C02 0x0201 0x00 0x00 0x00 0x80 0xA0 m)
      [r 0x0200 0x7A, r 0x0201 0x00, r 0x01FF 0x00, r 0x0100 0x80] = true := by decide

/-- R80: a word at 0xFFFF wraps: the operand byte of LDA # comes from 0x0000. -/
theorem test_fetch_wraps :
    let m := [(0x0000, 0x42), (0xFFFF, 0xA9)]
    goesTo (st .cmos65C02 0xFFFF 0xFD 0x00 0x00 0x00 0x20 m) (st .cmos65C02 0x0001 0xFD 0x42 0x00 0x00 0x20 m)
      [r 0xFFFF 0xA9, r 0x0000 0x42] = true := by decide

/-- R370's last row: the illegal byte 0x02 at 0x0200 makes the one access R 0200=02 and stops. -/
theorem test_illegal_R370 : ∀ v, faultsWith (st v 0x0200 0xFD 0x00 0x00 0x00 0x20 [(0x0200, 0x02), (0x0201, 0x12)])
    (.illegalOpcode 0x0200 0x02 [r 0x0200 0x02]) = true := by
  rintro (_ | _) <;> decide

/-- R9, P4: with the index fixup put at the last instruction byte fetched, LDA abs,X across a page reads 0x0202 again in place of
0x1200. -/
theorem test_P4_lastByte :
    let m := [(0x0200, 0xBD), (0x0201, 0xFF), (0x0202, 0x12), (0x1300, 0x5A)]
    let cfg : Config := { dummyAddresses := [((.cmos65C02, .indexFixup), .lastByte)] }
    goesTo { st .cmos65C02 0x0200 0xFD 0x00 0x01 0x00 0x20 m with cfg := cfg }
      { st .cmos65C02 0x0203 0xFD 0x5A 0x01 0x00 0x20 m with cfg := cfg }
      [r 0x0200 0xBD, r 0x0201 0xFF, r 0x0202 0x12, r 0x0202 0x12, r 0x1300 0x5A] = true := by decide

/-- R9, P5: with the extra decimal read put at the byte after the instruction, the sum is R186's, 0x09 + 0x01 = 0x10, and the extra read (R188) is there. -/
theorem test_P5_nextByte :
    let m := [(0x0010, 0x01), (0x0200, 0x65), (0x0201, 0x10), (0x0202, 0xEA)]
    let cfg : Config := { cmosDecExtraAddress := .nextByte }
    goesTo { st .cmos65C02 0x0200 0xFD 0x09 0x00 0x00 0x28 m with cfg := cfg }
      { st .cmos65C02 0x0202 0xFD 0x10 0x00 0x00 0x28 m with cfg := cfg }
      [r 0x0200 0x65, r 0x0201 0x10, r 0x0010 0x01, r 0x0202 0xEA] = true := by decide

/-- R186, R187, R188, R9: the extra read follows the arithmetic, so P5 = A reads page 0 at the sum 0x09 + 0x01 = 0x10, and at R187's
difference 0x12 - 0x21 = 0x91. -/
theorem test_P5_afterArithmetic :
    let cfg : Config := { cmosDecExtraAddress := .A }
    let m := [(0x0020, 0x01), (0x0200, 0x65), (0x0201, 0x20)]
    let n := [(0x0020, 0x21), (0x0091, 0x77), (0x0200, 0xE5), (0x0201, 0x20)]
    goesTo { st .cmos65C02 0x0200 0xFD 0x09 0x00 0x00 0x28 m with cfg := cfg }
        { st .cmos65C02 0x0202 0xFD 0x10 0x00 0x00 0x28 m with cfg := cfg }
        [r 0x0200 0x65, r 0x0201 0x20, r 0x0020 0x01, r 0x0010 0x00] = true ∧
      goesTo { st .cmos65C02 0x0200 0xFD 0x12 0x00 0x00 0x29 n with cfg := cfg }
        { st .cmos65C02 0x0202 0xFD 0x91 0x00 0x00 0xA8 n with cfg := cfg }
        [r 0x0200 0xE5, r 0x0201 0x20, r 0x0020 0x21, r 0x0091 0x77] = true := by decide

/-! ## Witnesses: a state and operands that meet the hypotheses of each statement -/

/-- The reset state on the other variant. -/
def nmos : State := { State.reset with cfg := { variant := .nmos6502 } }

/-- The reset state with a call pending. -/
def calling (c : HostCall) : State := { State.reset with host := [c] }

/-- D set, and a valid BCD accumulator at the end of its range. -/
def decimal (v : Variant) : State := { State.reset with cfg := { variant := v }, D := true, A := 0x99 }

/-- Each is well-formed and does not stop. -/
def allRun (cfg : Config) (l : List Instr) : Bool := l.all fun i => i.wellFormed cfg && !i.stops

theorem witness_DecodeInvertsEncode : (Instr.lda (.imm 0xFF)).wellFormed {} = true ∧ Instr.wellFormed {} (.illegal 0x02) = true ∧
    (Instr.jmp (.ind 0xFFFF)).wellFormed nmos.cfg = true := by decide

theorem witness_EncodeInvertsDecode : decode {} [0x4C, 0xFF, 0xFF, 0x00] = .ok (.jmp (.abs 0xFFFF), [0x00]) := rfl

theorem witness_DecodingIsTotal : isIllegalByte {} 0xFC = true ∧ isIllegalByte {} 0xFF = false ∧
    isIllegalByte nmos.cfg 0xFF = true := by decide

theorem witness_StepRunsTheDecodedInstruction :
    let s := st .cmos65C02 0xFFFF 0xFD 0x00 0x00 0x00 0x20 [(0x0000, 0x42), (0xFFFF, 0xA9)]
    decode s.cfg [s.peek s.PC, s.peek (s.PC + 1), s.peek (s.PC + 2)] = .ok (.lda (.imm 0x42), [0x00]) ∧ s.host = [] ∧
      ({ s with host := [HostCall.step] } : State).host = .step :: [] := ⟨rfl, rfl, rfl⟩

theorem witness_StepRunsTheInstructionInMemory :
    let s := st .cmos65C02 0xFFFF 0xFD 0x00 0x00 0x00 0x20 [(0x0000, 0x42), (0xFFFF, 0xA9)]
    s.host = [] ∧ (Instr.lda (.imm 0x42)).wellFormed s.cfg = true ∧ encode (.lda (.imm 0x42)) = some [0xA9, 0x42] ∧
      s.peek s.PC = 0xA9 ∧ s.peek (s.PC + 1) = 0x42 := by decide

theorem witness_PageCrossingIsTheNinthBit : ({ State.reset with X := 0x01 } : State).crossed (.abx 0x12FF) = true ∧
    ({ State.reset with X := 0x01 } : State).crossed (.abx 0x12FE) = false ∧
    ({ State.reset with X := 0xFF } : State).crossed (.abx 0xFFFF) = true := by decide

/-- The statements about loads, logic, compares, BIT, arithmetic, stores, shifts, INC and DEC, TSB and TRB, RMBn and SMBn,
branches, bit branches, pushes and pulls: their instructions are well-formed. -/
theorem witness_wellFormed_cmos : allRun {} [.lda (.izp 0xFF), .ldx (.zpy 0xFF), .ldy (.abx 0xFFFF), .and (.izp 0x00), .ora (.izx 0xFF),
    .eor (.izy 0xFF), .cmp (.aby 0xFFFF), .cpx (.abs 0xFFFF), .cpy (.zp 0xFF), .bit (.imm 0xC0), .bit (.abx 0xFFFF), .sta (.izp 0xFF),
    .stx (.zpy 0xFF), .sty (.zpx 0xFF), .stz (.abx 0xFFFF), .asl .acc, .rol (.abx 0xFFFF), .lsr (.zp 0xFF), .ror (.zpx 0xFF), .inc .acc,
    .dec (.abx 0xFFFF), .tsb (.abs 0xFFFF), .trb (.zp 0xFF), .rmb0 0x00, .rmb7 0xFF, .smb0 0x00, .smb7 0xFF, .bra 0x80, .bbr0 0xFF 0x7F,
    .bbs7 0x00 0x80, .pha, .php, .phx, .phy, .pla, .plp, .plx, .ply] = true := by decide

theorem witness_wellFormed_nmos : allRun nmos.cfg [.lda (.izy 0xFF), .ldx (.aby 0xFFFF), .ldy (.imm 0xFF), .and (.imm 0x00),
    .ora (.zp 0xFF), .eor (.zpx 0xFF), .cmp (.izx 0xFF), .cpx (.imm 0xFF), .cpy (.abs 0xFFFF), .bit (.zp 0xFF), .sta (.abx 0xFFFF),
    .stx (.abs 0xFFFF), .sty (.zp 0x00), .asl (.abx 0xFFFF), .rol .acc, .lsr (.abs 0x0000), .ror .acc, .inc (.zp 0xFF), .dec (.zpx 0x00),
    .bpl 0x80, .bmi 0x7F, .bvc 0xFF, .bvs 0x00, .bcc 0x80, .bcs 0x80, .bne 0x80, .beq 0x80, .pha, .php, .pla, .plp] = true := by decide

theorem witness_BinaryAddAndSubtractAreExact : State.reset.D = false ∧
    allRun State.reset.cfg [.adc (.imm 0xFF), .sbc (.imm 0x00)] = true := by decide

theorem witness_DecimalAddAndSubtractOnDigits : ∀ v, (decimal v).D = true ∧ isBcd (decimal v).A ∧
    isBcd ((decimal v).operand (.imm 0x99)) ∧ allRun (decimal v).cfg [.adc (.imm 0x99), .sbc (.imm 0x99)] = true := by
  unfold isBcd; rintro (_ | _) <;> decide

theorem witness_DecimalFlagSourcesPerVariant : (decimal .nmos6502).D = true ∧ (decimal .nmos6502).cfg.variant = .nmos6502 ∧
    (decimal .nmos6502).cfg.nmosDecAdcN = .intermediate ∧ (decimal .cmos65C02).cfg.variant = .cmos65C02 ∧
    ({ decimal .nmos6502 with cfg := { variant := .nmos6502, nmosDecAdcN := .binary } } : State).cfg.nmosDecAdcN = .binary := by decide

theorem witness_StoresWriteOneByte : nmos.cfg.variant = .nmos6502 ∧ opcodeOf (.stz (.zp 0xFF)) = some 0x64 := by decide

theorem witness_JumpGoesToItsTarget : nmos.cfg.variant = .nmos6502 ∧ State.reset.cfg.variant = .cmos65C02 ∧
    (0x30FF : Word).toNat % 256 = 255 ∧ (0x30FE : Word).toNat % 256 ≠ 255 := by decide

theorem witness_JsrPushesThenReadsTheHighByte :
    let s := st .cmos65C02 0x0200 0xFD 0x00 0x00 0x00 0x20 [(0x0200, 0x20), (0x0201, 0x34), (0x0202, 0x12)]
    s.peek (s.PC + 2) = hi8 0x1234 ∧ s.PC + 2 ≠ stackAddr s.S ∧ s.PC + 2 ≠ stackAddr (s.S - 1) := by decide

theorem witness_JsrThenRtsReturnsAfterTheCall : ∃ t, exec (.jsr 0x1234) ({ State.reset with S := 0x00 } : State) = .next t := ⟨_, rfl⟩

theorem witness_RtiReturnsFromTheException : (∃ t, exec .brk ({ State.reset with S := 0x01 } : State) = .next t) ∧
    State.reset.I = false := ⟨⟨_, rfl⟩, rfl⟩

theorem witness_WaiAndStpFault : ∀ op : Byte, op = 0xCB ∨ op = 0xDB →
    State.reset.cfg.variant = .cmos65C02 ∧ nmos.cfg.variant = .nmos6502 ∧ (State.reset.poke 0x0000 op).host = [] ∧
      (State.reset.poke 0x0000 op).peek (State.reset.poke 0x0000 op).PC = op ∧
      (nmos.poke 0x0000 op).peek (nmos.poke 0x0000 op).PC = op := by
  rintro op (rfl | rfl) <;> decide

theorem witness_IllegalBytesFault :
    (State.reset.poke 0x0000 0x02).peek (State.reset.poke 0x0000 0x02).PC = 0x02 ∧ isIllegalByte State.reset.cfg 0x02 = true ∧
    (nmos.poke 0x0000 0x80).peek (nmos.poke 0x0000 0x80).PC = 0x80 ∧ isIllegalByte nmos.cfg 0x80 = true := by decide

theorem witness_WhichTermsRun : allRun nmos.cfg [.jmp (.ind 0x30FF)] = true ∧
    ((Instr.stz (.zp 0x00)).wellFormed nmos.cfg = false ∧ opcodeOf (.stz (.zp 0x00)) = some 0x64) ∧
    (opcodeOf (.stz (.imm 0x00)) = none ∧ (Instr.stz (.imm 0x00)).stops = false) := by decide

theorem witness_NmiTakesTheException : (calling .nmi).host = .nmi :: [] := rfl

theorem witness_IrqIsTakenWhenInterruptsAreEnabled : (calling .irq).host = .irq :: [] ∧ (calling .irq).I = false := ⟨rfl, rfl⟩

theorem witness_MaskedIrqIsDropped : ({ calling .irq with I := true } : State).host = .irq :: [] ∧
    ({ calling .irq with I := true } : State).I = true := ⟨rfl, rfl⟩

theorem witness_ResetOperationZeroesTheRegisters : (calling .reset).host = .reset :: [] := rfl

theorem witness_BusPatternOfEveryInstruction : DefaultDummies State.reset.cfg ∧ allRun State.reset.cfg [.lda (.izy 0xFF), .brk] = true :=
  ⟨⟨rfl, rfl⟩, by decide⟩

theorem witness_CycleCountOfEveryInstruction :
    allRun { dummyAddresses := [((.cmos65C02, .indexFixup), .any 0)], cmosDecExtraAddress := .nextByte } [.adc (.abx 0xFFFF)] = true := by decide

/-- For the statements about every instruction that completes, and about every step: an instruction that writes nothing the
statement lists, and a step from reset, where memory reads as BRK. -/
theorem witness_completes : (∃ t, exec .nop State.reset = .next t) ∧ (∃ t, step State.reset = .next t) ∧ State.reset.host = [] ∧
    Inv State.reset :=
  ⟨⟨_, rfl⟩, ⟨_, rfl⟩, rfl, rfl⟩

theorem witness_FlagsChangeOnlyWhereListed : writesC .nop = false ∧ writesZ .nop = false ∧ writesI .nop = false ∧
    writesD {} .nop = false ∧ writesD nmos.cfg .brk = false ∧ writesV (.bit (.imm 0xFF)) = false ∧ writesN (.tsb (.zp 0xFF)) = false := by
  decide

theorem witness_RegistersChangeOnlyWhereListed : writesA .nop = false ∧ writesX .nop = false ∧ writesY .nop = false ∧
    writesS .nop = false ∧ writesMemory .nop = false ∧ transfersControl .nop = false ∧ writesA (.asl (.zp 0x00)) = false := by decide

theorem witness_DecimalFlagMattersToArithmeticOnly : touchesD .inx = false ∧ (∃ t, exec .inx State.reset = .next t) ∧
    DefaultDummies State.reset.cfg := ⟨rfl, ⟨_, rfl⟩, rfl, rfl⟩

theorem witness_TraceParametersLeaveTheResult : ∃ t, exec (.asl (.zp 0xFF)) State.reset = .next t := ⟨_, rfl⟩

theorem witness_RunStopsAtBreakWhenAsked :
    ({ State.reset with cfg := { stopOnBreak := true } } : State).cfg.stopOnBreak = true ∧ State.reset.peek State.reset.PC = 0x00 ∧
    (fun _ : State => true) State.reset = true ∧ (fun _ : State => false) State.reset = false ∧ State.reset.cfg.stopOnBreak = false ∧
    (State.reset.poke 0x0000 0xEA).peek 0x0000 ≠ 0x00 ∧ (∃ t, stepInstr State.reset = .next t) ∧
    (∃ f, stepInstr (State.reset.poke 0x0000 0x02) = .fault f) :=
  ⟨rfl, rfl, rfl, rfl, rfl, by decide, ⟨_, rfl⟩, _, rfl⟩

theorem witness_FaultingStepMakesTheOpcodeFetch : isIllegalByte State.reset.cfg ((State.reset.poke 0x0000 0x02).peek 0x0000) = true ∧
    (State.reset.poke 0x0000 0xCB).peek 0x0000 = 0xCB ∧ (State.reset.poke 0x0000 0xDB).peek 0x0000 = 0xDB ∧
    State.reset.cfg.variant = .cmos65C02 ∧ (∃ f, step (State.reset.poke 0x0000 0xCB) = .fault f) ∧
    ∃ f, step (nmos.poke 0x0000 0x80) = .fault f := by
  refine ⟨by decide, by decide, by decide, rfl, ⟨_, rfl⟩, _, rfl⟩

theorem witness_StepTakesTheCyclesOfTheTable : (∃ t, step State.reset = .next t) ∧ DefaultDummies State.reset.cfg ∧
    (∃ f, step (State.reset.poke 0x0000 0x02) = .fault f) ∧ (calling .nmi).host = .nmi :: [] ∧ HostCall.nmi ≠ .step :=
  ⟨⟨_, rfl⟩, ⟨rfl, rfl⟩, ⟨_, rfl⟩, rfl, by decide⟩

end Sys2Proof.Tests
end

section
/-! The packed status byte, bit by bit: what `Pack` and `Unpack` are to each other (spec 10_state.md R33 to R35). -/

namespace Sys2Proof.Machine

theorem eq_of_bitOf_eq {v w : Byte} (h : ∀ k < 8, bitOf v k = bitOf w k) : v = w := BitVec.eq_of_getLsbD_eq h

theorem bitOf_or (v w : Byte) (k : Nat) : bitOf (v ||| w) k = (bitOf v k || bitOf w k) := BitVec.getLsbD_or

theorem bitOf_flagBits (b : Bool) (mask : Byte) (k : Nat) : bitOf (flagBits b mask) k = (b && bitOf mask k) := by
  cases b
  · exact BitVec.getLsbD_zero
  · exact (Bool.true_and _).symm

/-- A bit of the packed status is the disjunction of its flags' contributions, each held to its own mask. -/
theorem State.bitOf_pack (s : State) (b : Bool) (k : Nat) : bitOf (s.pack b) k =
    (s.N && bitOf 0x80 k || s.V && bitOf 0x40 k || bitOf 0x20 k || b && bitOf 0x10 k || s.D && bitOf 0x08 k ||
      s.I && bitOf 0x04 k || s.Z && bitOf 0x02 k || s.C && bitOf 0x01 k) := by
  simp only [State.pack, bitOf_or, bitOf_flagBits]

/-- Every bit but 5 comes back: six as flags, bit 4 as the Break bit given (R35 (b)). -/
theorem State.pack_unpack (s : State) (v : Byte) : (s.unpack v).pack (bitOf v 4) = v ||| 0x20 := by
  refine eq_of_bitOf_eq fun k hk => ?_
  rw [State.bitOf_pack, bitOf_or]
  interval_cases k <;> simp [bitOf]

/-- A mask that is 0 at the six flags' bits, 0 to 3, 6 and 7, does not matter to `Unpack` (R34). -/
theorem State.unpack_or (s : State) (v : Byte) {w : Byte} (hw : w &&& 0xCF = 0) : s.unpack (v ||| w) = s.unpack v := by
  have hbit (k : Nat) (hk : bitOf 0xCF k = true) : bitOf (v ||| w) k = bitOf v k := by
    have h : bitOf (w &&& 0xCF) k = false := by rw [hw]; exact BitVec.getLsbD_zero
    have hwk : bitOf w k = false := by rwa [bitOf, BitVec.getLsbD_and, ← bitOf, ← bitOf, hk, Bool.and_true] at h
    rw [bitOf_or, hwk, Bool.or_false]
  simp only [State.unpack, hbit 0 rfl, hbit 1 rfl, hbit 2 rfl, hbit 3 rfl, hbit 6 rfl, hbit 7 rfl]

/-- Settles O45: `Pack` then `Unpack` is the identity, `Unpack` then `Pack` sets bit 5, and `Unpack` ignores bits 4 and 5. -/
theorem statusByteRoundTrip : Obligations.StatusByteRoundTrip :=
  fun s b v => ⟨s.unpack_pack b, s.pack_unpack v, s.unpack_or v rfl⟩

end Sys2Proof.Machine
end

section
/-! Binary addition in nine bits: what `AddBin` leaves, as unsigned and as signed numbers (spec 42_adc_sbc.md R181). -/

namespace Sys2Proof.Machine

theorem flagNat_le_one (b : Bool) : flagNat b ≤ 1 := by cases b <;> decide

theorem bitOf_seven (v : Byte) : bitOf v 7 = decide (128 ≤ v.toNat) := BitVec.getLsbD_last v

/-- A byte read as a two's-complement number. -/
theorem toInt_eq_ite (v : Byte) : v.toInt = if 128 ≤ v.toNat then (v.toNat : Int) - 256 else v.toNat := by
  rw [BitVec.toInt_eq_toNat_cond]
  split <;> split <;> omega

/-- The overflow formula, whatever result byte it is given: the operands agree in bit 7 and the result does not. -/
theorem addOverflow_iff (a m r : Byte) : addOverflow a m r = true ↔ bitOf a 7 = bitOf m 7 ∧ bitOf r 7 ≠ bitOf a 7 := by
  have hbit : addOverflow a m r = (!(bitOf a 7 ^^ bitOf m 7) && (bitOf a 7 ^^ bitOf r 7)) := by
    simp [addOverflow, bitOf]
  rw [hbit, Bool.and_eq_true, Bool.not_eq_true', bne_eq_false_iff_eq, bne_iff_ne, ne_comm]

theorem binSum_lt (a m : Byte) (c : Bool) : binSum a m c < 512 := by
  have := flagNat_le_one c
  have := a.isLt
  have := m.isLt
  unfold binSum
  omega

@[simp] theorem adcBinary_A_toNat (a m : Byte) (c : Bool) : (adcBinary a m c).A.toNat = binSum a m c % 256 :=
  BitVec.toNat_ofNat _ 8

@[simp] theorem adcBinary_C (a m : Byte) (c : Bool) : (adcBinary a m c).C = decide (256 ≤ binSum a m c) := rfl

/-- The result and the carry are the low byte and bit 8 of the sum. -/
theorem adcBinary_exact (a m : Byte) (c : Bool) :
    (adcBinary a m c).A.toNat + 256 * flagNat (adcBinary a m c).C = a.toNat + m.toNat + flagNat c := by
  have hlt := binSum_lt a m c
  rw [adcBinary_A_toNat, adcBinary_C, ← binSum, flagNat]
  simp only [decide_eq_true_eq]
  split <;> omega

theorem adcBinary_V_iff (a m : Byte) (c : Bool) :
    (adcBinary a m c).V = true ↔ bitOf a 7 = bitOf m 7 ∧ bitOf (adcBinary a m c).A 7 ≠ bitOf a 7 :=
  addOverflow_iff a m _

/-- V is signed overflow. Operands of unlike signs cannot overflow; those of like signs, when the carry into bit 7, which the
result shows there, is not the carry out of it. -/
theorem adcBinary_V_iff_signed (a m : Byte) (c : Bool) :
    (adcBinary a m c).V = true ↔ ¬ (-128 ≤ a.toInt + m.toInt + flagNat c ∧ a.toInt + m.toInt + flagNat c ≤ 127) := by
  have hc := flagNat_le_one c
  have ha := a.isLt
  have hm := m.isLt
  rw [adcBinary_V_iff, toInt_eq_ite a, toInt_eq_ite m]
  simp only [bitOf_seven, adcBinary_A_toNat, binSum, ne_eq, decide_eq_decide]
  by_cases hlike : 128 ≤ a.toNat ↔ 128 ≤ m.toNat
  · by_cases hneg : 128 ≤ a.toNat
    · rw [if_pos hneg, if_pos (hlike.mp hneg)]
      omega
    · rw [if_neg hneg, if_neg (mt hlike.mpr hneg)]
      omega
  · omega

/-- Settles O14: the sum in nine bits, V by the signs of operands and result, V as signed overflow. -/
theorem addBinIsExactAddition : Obligations.AddBinIsExactAddition :=
  fun a m c => ⟨adcBinary_exact a m c, adcBinary_V_iff a m c, adcBinary_V_iff_signed a m c⟩

end Sys2Proof.Machine
end

section
/-! The store class: one byte at the effective address, or on NMOS6502 no STZ at all (spec 43_store_class.md R201 to R204). -/

namespace Sys2Proof.Machine

/-- On NMOS6502 the modes of a mnemonic are the ones that both variants have (R97). -/
theorem wellFormed_nmos {cfg : Config} {i : Instr} (hv : cfg.variant = .nmos6502) (hs : i.stops = false) :
    i.wellFormed cfg = i.commonModes.contains i.mode := by
  have hi := ne_illegal_of_stops hs
  rw [wellFormed_eq_usable cfg hi, ← available_eq_usable cfg hi, Instr.available, hv]

/-- A term with an opcode byte that the configuration lacks stops as an illegal opcode, after the opcode fetch (R404). -/
theorem exec_of_not_wellFormed {i : Instr} {s : State} {op : Byte} (hs : i.stops = false) (hw : i.wellFormed s.cfg = false)
    (ho : opcodeOf i = some op) : exec i s = .fault (.illegalOpcode s.PC op (s.trace ++ [rd s s.PC])) := by
  rw [exec_eq_runEntry hs, runEntry_eq (ne_illegal_of_stops hs), hw, if_neg Bool.false_ne_true, ho, State.fetch_trace]

/-- A mnemonic without an immediate form has none among its well-formed terms. -/
theorem ne_imm_of_wellFormed {f : DataOperand → Instr} {cfg : Config} {o : DataOperand} (hs : (f o).stops = false)
    (himm : ∀ b, opcodeOf (f (.imm b)) = none) (hw : (f o).wellFormed cfg = true) : ∀ b, o ≠ .imm b := by
  rintro b rfl
  obtain ⟨op, ho, -⟩ := legal_of_wellFormed hw (ne_illegal_of_stops hs)
  cases (himm b).symm.trans ho

/-- A mnemonic without an immediate form whose effect is the store of `v` leaves that one byte and PC changed. -/
theorem completesWith_store {f : DataOperand → Instr} {s : State} {o : DataOperand} {v : Byte} (hs : (f o).stops = false)
    (himm : ∀ b, opcodeOf (f (.imm b)) = none) (hmode : (f o).mode = o.mode) (heff : effect (f o) s = s.store o v)
    (hw : (f o).wellFormed s.cfg = true) :
    CompletesWith (f o) s { s with PC := s.after (f o) } (s.withByte (s.ea o) v) := by
  have hne := ne_imm_of_wellFormed hs himm hw
  refine ⟨s.store o v, heff ▸ exec_next hw hs, ?_, s.peek_store o v hne⟩
  rw [s.regs_store o v hne, ← hmode]
  rfl

/-- Settles O18: the opcode bytes are R97's, each store is the same operation with another byte, and NMOS6502 has no mode of
STZ. -/
theorem storesWriteOneByte : Obligations.StoresWriteOneByte := by
  refine fun s o b w => ⟨rfl, rfl, rfl, rfl, ?stores, fun op hv ho => ?stzNmos⟩
  case stores =>
    rintro p hp hw
    simp only [List.mem_cons, List.not_mem_nil, or_false] at hp
    obtain rfl | rfl | rfl | rfl := hp
    · exact completesWith_store (f := .sta) rfl (fun _ => rfl) rfl rfl hw
    · exact completesWith_store (f := .stx) rfl (fun _ => rfl) rfl rfl hw
    · exact completesWith_store (f := .sty) rfl (fun _ => rfl) rfl rfl hw
    · exact completesWith_store (f := .stz) rfl (fun _ => rfl) rfl rfl hw
  case stzNmos => exact exec_of_not_wellFormed rfl (wellFormed_nmos hv rfl) ho

end Sys2Proof.Machine
end

section
/-! The stack pushes and pulls: one byte at the stack address, and S one less or one more (spec 46_stack_interrupt_shaped.md R271
to R278). -/

namespace Sys2Proof.Machine

/-- The stack address of R27 as a number. -/
theorem eq_stackAddr_iff {a : Word} {b : Byte} : a = stackAddr b ↔ a.toNat = 256 + b.toNat := by
  rw [BitVec.toNat_eq, stackAddr_toNat]

/-! ## Pushes -/

theorem State.regs_implied_push (s : State) (v : Byte) :
    (s.implied.push v).regs = { s with S := s.S - 1, PC := s.PC + 1 }.regs := by
  rw [State.regs_push, State.regs_implied, State.implied_S]
  rfl

theorem State.peek_implied_push (s : State) (v : Byte) (a : Word) :
    (s.implied.push v).peek a = if a.toNat = 256 + s.S.toNat then v else s.peek a := by
  simp only [State.peek_push, State.peek_implied, State.implied_S, eq_stackAddr_iff]

theorem State.trace_implied_push {s : State} (h : DefaultDummies s.cfg) (v : Byte) :
    (s.implied.push v).trace = s.trace ++ pushPattern s v := by
  rw [State.push_trace, State.trace_implied h, State.implied_S, List.append_assoc]
  rfl

theorem pushPattern_eq (s : State) (v : Byte) : pushPattern s v = [rd s s.PC, rd s (s.PC + 1), wr (stackAddr s.S) v] := by
  rw [pushPattern, rdInstr_two]
  rfl

/-- What R271 to R274 have in common: a well-formed instruction whose effect is the push of `v`. -/
theorem exec_push {i : Instr} {s : State} {v : Byte} (hs : i.stops = false) (heff : effect i s = s.implied.push v)
    (hw : i.wellFormed s.cfg = true) :
    ∃ t, exec i s = .next t ∧ t.regs = { s with S := s.S - 1, PC := s.PC + 1 }.regs ∧
      (∀ a, t.peek a = if a.toNat = 256 + s.S.toNat then v else s.peek a) ∧ t.cycles = s.cycles + 3 ∧
      (DefaultDummies s.cfg → t.trace = s.trace ++ [rd s s.PC, rd s (s.PC + 1), wr (stackAddr s.S) v]) :=
  ⟨s.implied.push v, heff ▸ exec_next hw hs, s.regs_implied_push v, s.peek_implied_push v, rfl,
    fun hd => pushPattern_eq s v ▸ State.trace_implied_push hd v⟩

/-- Settles O26: the opcode bytes are R97's, each push is the same operation with another byte, and NMOS6502 has no PHX and no
PHY. -/
theorem pushesWriteTheStackByte : Obligations.PushesWriteTheStackByte := by
  refine fun s => ⟨rfl, ?pushes, fun hv => ⟨?phxNmos, ?phyNmos⟩⟩
  case pushes =>
    rintro p hp hw
    simp only [List.mem_cons, List.not_mem_nil, or_false] at hp
    obtain rfl | rfl | rfl | rfl := hp
    · exact exec_push (i := .pha) rfl rfl hw
    · exact exec_push (i := .php) rfl rfl hw
    · exact exec_push (i := .phx) rfl rfl hw
    · exact exec_push (i := .phy) rfl rfl hw
  case phxNmos => exact exec_of_not_wellFormed rfl (wellFormed_nmos hv rfl) rfl
  case phyNmos => exact exec_of_not_wellFormed rfl (wellFormed_nmos hv rfl) rfl

/-! ## Pulls -/

theorem State.trace_implied_stackTop_pull {s : State} (h : DefaultDummies s.cfg) :
    s.implied.stackTop.pull.trace = s.trace ++ pullPattern s 1 := by
  rw [State.pull_trace, State.trace_stackTop (by simpa using h), State.trace_implied h, List.append_assoc, List.append_assoc]
  rfl

theorem pullPattern_one (s : State) :
    pullPattern s 1 = [rd s s.PC, rd s (s.PC + 1), rd s (stackAddr s.S), rd s (stackAddr (s.S + 1))] := by
  rw [pullPattern, rdInstr_two]
  rfl

theorem State.arch_implied_stackTop_pull (s : State) :
    s.implied.stackTop.pull.arch = { s with S := s.S + 1, PC := s.PC + 1 }.arch := by
  rw [State.arch_pull, State.arch_stackTop, State.arch_implied]
  rfl

/-- An update that writes registers and flags alone: it has the same effect on the architectural part, and counts no access. -/
def WritesRegisters (f : State → State) : Prop :=
  ∀ t : State, (f t).arch = f t.arch ∧ (f t).trace = t.trace ∧ (f t).cycles = t.cycles

theorem WritesRegisters.arch_congr {f : State → State} (hf : WritesRegisters f) {t u : State} (h : t.arch = u.arch) :
    (f t).arch = (f u).arch := by
  rw [(hf t).1, (hf u).1, h]

/-- What R275 to R278 have in common: a well-formed instruction that makes the accesses of one pull, and then writes registers
and flags. -/
theorem exec_pull {i : Instr} {s : State} (f : State → State) (hs : i.stops = false)
    (heff : effect i s = f s.implied.stackTop.pull) (hf : WritesRegisters f) (hw : i.wellFormed s.cfg = true) :
    ∃ t, exec i s = .next t ∧ t.arch = (f { s with S := s.S + 1, PC := s.PC + 1 }).arch ∧ t.cycles = s.cycles + 4 ∧
      (DefaultDummies s.cfg → t.trace = s.trace ++
        [rd s s.PC, rd s (s.PC + 1), rd s (stackAddr s.S), rd s (stackAddr (s.S + 1))]) := by
  obtain ⟨-, htrace, hcycles⟩ := hf s.implied.stackTop.pull
  exact ⟨_, heff ▸ exec_next hw hs, hf.arch_congr s.arch_implied_stackTop_pull, hcycles, fun hd =>
    pullPattern_one s ▸ htrace.trans (State.trace_implied_stackTop_pull hd)⟩

/-- Settles O27: the opcode bytes are R97's, each pull makes the same accesses and puts the byte it reads in another place, and
NMOS6502 has no PLX and no PLY. -/
theorem pullsReadTheStackByte : Obligations.PullsReadTheStackByte := by
  refine fun s => ⟨rfl, ?pulls, fun hv => ⟨?plxNmos, ?plyNmos⟩⟩
  case pulls =>
    rintro p hp hw
    simp only [List.mem_cons, List.not_mem_nil, or_false] at hp
    obtain rfl | rfl | rfl | rfl := hp
    · exact exec_pull (i := .pla) (fun t => (t.setA s.pulled).setNZ s.pulled) rfl rfl (fun _ => ⟨rfl, rfl, rfl⟩) hw
    · exact exec_pull (i := .plx) (fun t => (t.setX s.pulled).setNZ s.pulled) rfl rfl (fun _ => ⟨rfl, rfl, rfl⟩) hw
    · exact exec_pull (i := .ply) (fun t => (t.setY s.pulled).setNZ s.pulled) rfl rfl (fun _ => ⟨rfl, rfl, rfl⟩) hw
    · exact exec_pull (i := .plp) (fun t => t.unpack s.pulled) rfl rfl (fun _ => ⟨rfl, rfl, rfl⟩) hw
  case plxNmos => exact exec_of_not_wellFormed rfl (wellFormed_nmos hv rfl) rfl
  case plyNmos => exact exec_of_not_wellFormed rfl (wellFormed_nmos hv rfl) rfl

end Sys2Proof.Machine
end

section
/-! The instructions with an implied operand: the opcode fetch, one dummy read, and a write to registers and flags (spec
47_implied.md R301 to R312, R316). -/

namespace Sys2Proof.Machine

/-- What the instructions of 47_implied.md have in common: both variants have them, and after the accesses of an implied
operand they write registers and flags alone. -/
theorem completes_implied {i : Instr} {s : State} (f : State → State) (hs : i.stops = false)
    (hmode : i.commonModes.contains i.mode = true) (heff : effect i s = f s.implied) (hf : WritesRegisters f) :
    Completes i s (f { s with PC := s.PC + 1 }) :=
  ⟨f s.implied, heff ▸ exec_next (wellFormed_of_common hmode) hs, hf.arch_congr s.arch_implied⟩

/-- Settles O35: the opcode bytes are R97's, and each instruction is the same operation with another flag written, NOP with
none. -/
theorem flagInstructionsWriteOneFlag : Obligations.FlagInstructionsWriteOneFlag := by
  refine ⟨rfl, fun s p hp => ?_⟩
  simp only [List.mem_cons, List.not_mem_nil, or_false] at hp
  obtain rfl | rfl | rfl | rfl | rfl | rfl | rfl | rfl := hp
  · exact completes_implied (i := .clc) (·.setC false) rfl rfl rfl (fun _ => ⟨rfl, rfl, rfl⟩)
  · exact completes_implied (i := .sec) (·.setC true) rfl rfl rfl (fun _ => ⟨rfl, rfl, rfl⟩)
  · exact completes_implied (i := .cli) (·.setI false) rfl rfl rfl (fun _ => ⟨rfl, rfl, rfl⟩)
  · exact completes_implied (i := .sei) (·.setI true) rfl rfl rfl (fun _ => ⟨rfl, rfl, rfl⟩)
  · exact completes_implied (i := .cld) (·.setD false) rfl rfl rfl (fun _ => ⟨rfl, rfl, rfl⟩)
  · exact completes_implied (i := .sed) (·.setD true) rfl rfl rfl (fun _ => ⟨rfl, rfl, rfl⟩)
  · exact completes_implied (i := .clv) (·.setV false) rfl rfl rfl (fun _ => ⟨rfl, rfl, rfl⟩)
  · exact completes_implied (i := .nop) id rfl rfl rfl (fun _ => ⟨rfl, rfl, rfl⟩)

end Sys2Proof.Machine
end

section
/-! A step that faults: it has made the opcode fetch and no other access (spec 48_bus_access_patterns.md R365). -/

namespace Sys2Proof.Machine

/-- A fault of the instruction at PC is the fault of the step (R400). -/
theorem step_fault {s : State} {f : Fault} (hh : s.host = []) (h : exec (fetchInstr s) s.beginTransaction = .fault f) :
    step s = .fault f := by
  rw [step_nil hh, stepInstr_eq, h, retired]

/-- Every outcome of a step that makes no host call: the byte at PC decodes to a well-formed instruction, and that completes or
stops after the opcode fetch. -/
theorem step_cases {s : State} (hh : s.host = []) :
    (∃ t, step s = .next t) ∨ step s = .fault (.illegalOpcode s.PC (s.peek s.PC) [rd s s.PC]) ∨
      step s = .fault (.unsupportedInstruction s.PC (s.peek s.PC) [rd s s.PC]) := by
  obtain ⟨hw, ho⟩ := fetchInstr_wellFormed s
  obtain ⟨t, ht⟩ | hill | huns := exec_wellFormed (s := s.beginTransaction) hw ho
  · exact .inl ⟨_, by rw [step_nil hh, stepInstr_eq, ht, retired]⟩
  · exact .inr (.inl (step_fault hh hill))
  · exact .inr (.inr (step_fault hh huns))

/-- The illegal bytes of CMOS65C02 are on one of R98's two lists, whatever P2 is. -/
theorem isIllegalByte_cmos_of_unlisted {cfg : Config} {op : Byte} (hv : cfg.variant = .cmos65C02)
    (h : cmosIllegalBytes.contains op = false) (hb : bitBranchBytes.contains op = false) : isIllegalByte cfg op = false := by
  rw [isIllegalByte, hv]
  simp only [h, hb, Bool.and_false, Bool.or_false]

/-- An instruction without operand bytes is read from its opcode byte alone. -/
theorem decodeBytes_of_opcodeOf {cfg : Config} {i : Instr} {op : Byte} (ho : opcodeOf i = some op) (hi : ∀ b, i ≠ .illegal b)
    (hops : operandBytes i = []) (hl : isIllegalByte cfg op = false) (b1 b2 : Byte) : decodeBytes cfg op b1 b2 = i := by
  have hslot := (slot_of_opcode ho hi).2 op [b1, b2]
  rw [hops] at hslot
  rw [decodeBytes, tableCell_legal hl]
  exact hslot

/-- An unimplemented instruction that the variant has stops with the fault of R406. -/
theorem unsupported_of_legal {op : Byte} {s : State} (hl : isIllegalByte s.cfg op = false) :
    unsupported op s = .fault (.unsupportedInstruction s.PC op (s.trace ++ [rd s s.PC])) := by
  rw [unsupported, hl, if_neg Bool.false_ne_true, State.fetch_trace]

/-- What WAI and STP have in common: the step that finds the opcode byte of an unimplemented instruction. -/
theorem step_unsupported {s : State} {i : Instr} {op : Byte} (hh : s.host = []) (hop : s.peek s.PC = op)
    (hl : isIllegalByte s.cfg op = false) (ho : opcodeOf i = some op) (hi : ∀ b, i ≠ .illegal b) (hops : operandBytes i = [])
    (hexec : ∀ t, exec i t = unsupported op t) : step s = .fault (.unsupportedInstruction s.PC op [rd s s.PC]) := by
  have hfetch : fetchInstr s = i := by rw [fetchInstr, hop, decodeBytes_of_opcodeOf ho hi hops hl]
  refine step_fault hh ?_
  rw [hfetch, hexec]
  exact unsupported_of_legal (s := s.beginTransaction) hl

/-- On CMOS65C02 a step that finds WAI at PC stops with UnsupportedInstruction (R319, R365). -/
theorem step_wai {s : State} (hh : s.host = []) (hv : s.cfg.variant = .cmos65C02) (hop : s.peek s.PC = 0xCB) :
    step s = .fault (.unsupportedInstruction s.PC 0xCB [rd s s.PC]) :=
  step_unsupported (i := .wai) hh hop (isIllegalByte_cmos_of_unlisted hv (by decide) (by decide)) rfl
    (fun _ => Instr.noConfusion) rfl fun _ => rfl

/-- On CMOS65C02 a step that finds STP at PC stops with UnsupportedInstruction (R320, R365). -/
theorem step_stp {s : State} (hh : s.host = []) (hv : s.cfg.variant = .cmos65C02) (hop : s.peek s.PC = 0xDB) :
    step s = .fault (.unsupportedInstruction s.PC 0xDB [rd s s.PC]) :=
  step_unsupported (i := .stp) hh hop (isIllegalByte_cmos_of_unlisted hv (by decide) (by decide)) rfl
    (fun _ => Instr.noConfusion) rfl fun _ => rfl

/-- A step that finds an illegal byte at PC stops with IllegalOpcode (R404, R365). -/
theorem step_illegalByte {s : State} (hh : s.host = []) (hl : isIllegalByte s.cfg (s.peek s.PC) = true) :
    step s = .fault (.illegalOpcode s.PC (s.peek s.PC) [rd s s.PC]) := by
  refine step_fault hh ?_
  rw [fetchInstr, decodeBytes_illegal hl]
  rfl

/-- Settles O57: the two kinds of faulting byte are read as the terms that stop, and no other outcome of a step is a fault. -/
theorem faultingStepMakesTheOpcodeFetch : Obligations.FaultingStepMakesTheOpcodeFetch := by
  refine fun s hh => ⟨step_illegalByte hh, ?unsupported, ?anyFault⟩
  case unsupported =>
    rintro hv (hop | hop)
    · exact hop ▸ step_wai hh hv hop
    · exact hop ▸ step_stp hh hv hop
  case anyFault =>
    intro f hf
    obtain ⟨t, ht⟩ | hill | huns := step_cases hh
    · cases ht.symm.trans hf
    · cases hill.symm.trans hf
      rfl
    · cases huns.symm.trans hf
      rfl

end Sys2Proof.Machine
end

section
/-! WAI and STP on both variants: on CMOS65C02 the fault of their own, on NMOS6502 an illegal byte like any other (spec
60_exceptions.md R404, R406). -/

namespace Sys2Proof.Machine

/-- The illegal bytes of NMOS6502 are on R98's list. -/
theorem isIllegalByte_nmos_of_listed {cfg : Config} {op : Byte} (hv : cfg.variant = .nmos6502)
    (h : nmosIllegalBytes.contains op = true) : isIllegalByte cfg op = true := by
  rw [isIllegalByte, hv]
  exact h

/-- An unimplemented instruction that the variant lacks stops with the fault of R404. -/
theorem unsupported_of_illegal {op : Byte} {s : State} (hl : isIllegalByte s.cfg op = true) :
    unsupported op s = .fault (.illegalOpcode s.PC op (s.trace ++ [rd s s.PC])) := by
  rw [unsupported, if_pos hl, State.fetch_trace]

/-- Settles O36: the two bytes are on R98's list for NMOS6502 and on neither of its lists for CMOS65C02. -/
theorem waiAndStpFault : Obligations.WaiAndStpFault := by
  intro s op i h
  obtain ⟨ho, hexec, hnmos, hcmos, hbit⟩ : opcodeOf i = some op ∧ exec i s = unsupported op s ∧
      nmosIllegalBytes.contains op = true ∧ cmosIllegalBytes.contains op = false ∧ bitBranchBytes.contains op = false := by
    obtain ⟨rfl, rfl⟩ | ⟨rfl, rfl⟩ := h
    · exact ⟨rfl, rfl, by decide⟩
    · exact ⟨rfl, rfl, by decide⟩
  refine ⟨ho, fun hv => ⟨?cmosExec, fun hh hop => ?cmosStep⟩, fun hv => ⟨?nmosExec, fun hh hop => ?nmosStep⟩⟩
  case cmosExec => exact hexec.trans (unsupported_of_legal (isIllegalByte_cmos_of_unlisted hv hcmos hbit))
  case cmosStep =>
    obtain ⟨rfl, rfl⟩ | ⟨rfl, rfl⟩ := h
    · exact step_wai hh hv hop
    · exact step_stp hh hv hop
  case nmosExec => exact hexec.trans (unsupported_of_illegal (isIllegalByte_nmos_of_listed hv hnmos))
  case nmosStep =>
    subst hop
    exact step_illegalByte hh (isIllegalByte_nmos_of_listed hv hnmos)

end Sys2Proof.Machine
end

section
/-! The return from an exception: it undoes the entry that BRK, NMI and IRQ share (spec 60_exceptions.md R415, R419). -/

namespace Sys2Proof.Machine

theorem exec_rti (s : State) : exec .rti s = .next s.implied.stackTop.interruptReturn :=
  exec_next (wellFormed_of_common rfl) rfl

theorem State.setPC_unpack (s : State) (w : Word) (v : Byte) : (s.setPC w).unpack v = (s.unpack v).setPC w := rfl

/-- The opcode fetch and the two dummy reads of RTI do not matter to the return: they move PC, which the return overwrites. -/
theorem State.arch_implied_stackTop_interruptReturn (s : State) :
    s.implied.stackTop.interruptReturn.arch = s.interruptReturn.arch := by
  simp only [State.arch_interruptReturn, State.arch_stackTop, State.arch_implied, State.peek_stackTop, State.peek_implied,
    State.stackTop_S, State.implied_S, State.setPC_unpack, State.setPC_setS, State.setPC_setPC]

/-- The return depends on the state it starts from only through the pulled bytes, and it overwrites S, PC and the six flags. -/
theorem State.regs_interruptReturn (s : State) :
    s.interruptReturn.regs =
      ((s.regs.unpack (s.peek (stackAddr (s.S + 1)))).setS (s.S + 3)).setPC
        (word (s.peek (stackAddr (s.S + 3))) (s.peek (stackAddr (s.S + 2)))) :=
  congrArg State.regs s.arch_interruptReturn

/-- The registers that RTI leaves are those of the return without its dummy reads. -/
theorem State.regs_implied_stackTop_interruptReturn (s : State) :
    s.implied.stackTop.interruptReturn.regs = s.interruptReturn.regs := by
  rw [← State.regs_arch, State.arch_implied_stackTop_interruptReturn, State.regs_arch]

/-- The return keeps the counters as it found them, also the free value that a host interrupt leaves. -/
theorem State.regs_interruptReturn_freeInstrs (s : State) :
    s.freeInstrs.interruptReturn.regs = s.interruptReturn.regs.freeInstrs := by
  rw [State.regs_interruptReturn, State.regs_interruptReturn]
  rfl

theorem State.interruptEntry_S (s : State) (vec : Word) (b counted : Bool) :
    (s.interruptEntry vec b counted).S = s.S - 3 := by
  rw [State.interruptEntry, State.fetchVector, State.setPC_S]
  have h : s.S - 2 - 1 = s.S - 3 := by bv_omega
  cases counted <;> simpa [State.pushWord_S] using h

theorem State.interruptEntry_free (s : State) (vec : Word) (b counted : Bool) :
    (s.interruptEntry vec b counted).free = s.free := by
  rw [State.interruptEntry, State.fetchVector, State.setPC_free]
  cases counted <;> simp [State.pushWord]

/-- The return undoes the entry: S is back where it was, and the three bytes above it are the status and the address that
the entry pushed, so every register and flag is as it was before it (R419). -/
theorem State.regs_interruptReturn_interruptEntry (s : State) {vec : Word} (b counted : Bool) (h : 0x200 ≤ vec.toNat)
    (h' : vec.toNat < 65535) : (s.interruptEntry vec b counted).interruptReturn.regs = s.regs := by
  have hS1 : s.S - 3 + 1 = s.S - 2 := by bv_omega
  have hS2 : s.S - 3 + 2 = s.S - 1 := by bv_omega
  have hS3 : s.S - 3 + 3 = s.S := by bv_omega
  have hstatus : (s.interruptEntry vec b counted).peek (stackAddr (s.S - 2)) = s.pack b := by
    rw [State.peek_interruptEntry, if_neg (stackAddr_sub_two_ne _), if_neg (stackAddr_sub_two_ne_sub_one _), if_pos rfl]
  have hlow : (s.interruptEntry vec b counted).peek (stackAddr (s.S - 1)) = lo8 s.PC := by
    rw [State.peek_interruptEntry, if_neg (stackAddr_sub_one_ne _), if_pos rfl]
  have hhigh : (s.interruptEntry vec b counted).peek (stackAddr s.S) = hi8 s.PC := by
    rw [State.peek_interruptEntry, if_pos rfl]
  rw [State.regs_interruptReturn, State.interruptEntry_S, hS1, hS2, hS3, hstatus, hlow, hhigh, word_hi8_lo8,
    State.regs_interruptEntry _ _ _ _ h h']
  exact congrArg State.regs (s.unpack_pack b)

/-- RTI right after an entry restores the registers and the flags. -/
theorem exec_rti_interruptEntry (s : State) {vec : Word} (b counted : Bool) (h : 0x200 ≤ vec.toNat) (h' : vec.toNat < 65535) :
    ∃ u, exec .rti (s.interruptEntry vec b counted) = .next u ∧ u.regs = s.regs :=
  ⟨_, exec_rti _, by
    rw [State.regs_implied_stackTop_interruptReturn, State.regs_interruptReturn_interruptEntry s b counted h h']⟩

/-- RTI right after a host interrupt, which has left a free value in the instruction counter, restores everything else. -/
theorem exec_rti_freeInstrs_interruptEntry (s : State) {vec : Word} (b counted : Bool) (h : 0x200 ≤ vec.toNat)
    (h' : vec.toNat < 65535) :
    let t := (s.interruptEntry vec b counted).freeInstrs
    ∃ u, exec .rti t = .next u ∧ u.regs = { s with instrs := t.instrs, free := t.free }.regs := by
  refine ⟨_, exec_rti _, ?_⟩
  rw [State.regs_implied_stackTop_interruptReturn, State.regs_interruptReturn_freeInstrs,
    State.regs_interruptReturn_interruptEntry s b counted h h', State.freeInstrs_instrs, State.freeInstrs_free,
    State.interruptEntry_free]
  rfl

/-- RTI (R282, R419). -/
theorem completes_rti (s : State) :
    Completes .rti s (((s.unpack (s.peek (stackAddr (s.S + 1)))).setS (s.S + 3)).setPC
      (word (s.peek (stackAddr (s.S + 3))) (s.peek (stackAddr (s.S + 2))))) :=
  ⟨_, exec_rti s, s.arch_implied_stackTop_interruptReturn.trans s.arch_interruptReturn⟩

/-- Settles O32: BRK, NMI and a taken IRQ are one entry, BRK's after the fetch of its two bytes, and RTI undoes it. -/
theorem rtiReturnsFromTheException : Obligations.RtiReturnsFromTheException := by
  refine fun s => ⟨completes_rti s, ?brk, ?nmi, ?irq⟩
  case brk =>
    intro t ht
    obtain ⟨-, -, rfl⟩ := exec_next_inv ht
    obtain ⟨u, hu, hregs⟩ := exec_rti_interruptEntry s.fetch.fetch (vec := vecIRQ) true true (by decide) (by decide)
    refine ⟨u, hu, hregs.trans ?_⟩
    rw [← pc_two]
    rfl
  case nmi => exact exec_rti_freeInstrs_interruptEntry s false _ (by decide) (by decide)
  case irq =>
    intro hI
    rw [State.irq_taken hI]
    exact exec_rti_freeInstrs_interruptEntry s false _ (by decide) (by decide)

end Sys2Proof.Machine
end

section
/-! The two directions of the round trip between bytes and instructions (spec 30_encoding.md R90 to R101). -/

namespace Sys2Proof

/-- An illegal byte is read as the illegal marker, and one byte is taken. -/
theorem decode_illegal {cfg : Config} {op : Byte} (h : isIllegalByte cfg op = true) (rest : List Byte) :
    decode cfg (op :: rest) = .ok (.illegal op, rest) := by
  simp [decode, tableCell_illegal h, decodeBytes_illegal h, Cell.length]

/-- The slot of an opcode byte that the configuration has is as long as the opcode byte and the operand bytes together. -/
theorem tableCell_length_of_opcodeOf {cfg : Config} {i : Instr} {op : Byte} (ho : opcodeOf i = some op) (hi : ∀ b, i ≠ .illegal b)
    (hl : isIllegalByte cfg op = false) : (tableCell cfg op).length = (operandBytes i).length + 1 := by
  rw [tableCell_legal hl]
  exact (slot_of_opcode ho hi).1

/-- That slot reads the operand bytes, whatever follows them, as the instruction. -/
theorem decodeBytes_operandBytes {cfg : Config} {i : Instr} {op : Byte} (ho : opcodeOf i = some op) (hi : ∀ b, i ≠ .illegal b)
    (hl : isIllegalByte cfg op = false) (rest : List Byte) :
    decodeBytes cfg op ((operandBytes i ++ rest).getD 0 0) ((operandBytes i ++ rest).getD 1 0) = i := by
  rw [decodeBytes, tableCell_legal hl]
  exact (slot_of_opcode ho hi).2 op rest

/-- The bytes of an instruction that the configuration has are read as that instruction, whatever follows them. -/
theorem decode_encoded {cfg : Config} {i : Instr} {op : Byte} (ho : opcodeOf i = some op) (hi : ∀ b, i ≠ .illegal b)
    (hl : isIllegalByte cfg op = false) (rest : List Byte) :
    decode cfg (op :: (operandBytes i ++ rest)) = .ok (i, rest) := by
  have hn : (tableCell cfg op).length - 1 = (operandBytes i).length := by
    rw [tableCell_length_of_opcodeOf ho hi hl, Nat.add_sub_cancel]
  simp only [decode, hn, decodeBytes_operandBytes ho hi hl, List.length_append, List.drop_left]
  rw [if_neg (by omega)]

/-- An instruction that the configuration has is as long as its opcode byte and operand bytes together. -/
theorem length_eq_operandBytes {cfg : Config} {i : Instr} {op : Byte} (ho : opcodeOf i = some op) (hi : ∀ b, i ≠ .illegal b)
    (hl : isIllegalByte cfg op = false) : i.length = (operandBytes i).length + 1 := by
  rw [← tableCell_length_of_opcodeOf ho hi hl, ← decodeBytes_length cfg op, decodeBytes_operandBytes ho hi hl []]

/-- Settles O2: the illegal marker is its byte, and every other instruction is the one that its opcode byte's slot reads. -/
theorem decodeInvertsEncode : Obligations.DecodeInvertsEncode := by
  intro cfg i rest hw
  by_cases hi : ∃ op, i = .illegal op
  · obtain ⟨op, rfl⟩ := hi
    exact ⟨[op], rfl, rfl, decode_illegal hw rest⟩
  · have hi : ∀ op, i ≠ .illegal op := fun op h => hi ⟨op, h⟩
    obtain ⟨op, ho, hl⟩ := Machine.legal_of_wellFormed hw hi
    exact ⟨op :: operandBytes i, by rw [encode, ho]; rfl, (length_eq_operandBytes ho hi hl).symm, decode_encoded ho hi hl rest⟩

/-- A successful decoding takes the bytes of one slot. -/
theorem decode_ok_inv {cfg : Config} {bs rest : List Byte} {i : Instr} (h : decode cfg bs = .ok (i, rest)) :
    ∃ b0 l, bs = b0 :: l ∧ (tableCell cfg b0).length - 1 ≤ l.length ∧ i = decodeBytes cfg b0 (l.getD 0 0) (l.getD 1 0) ∧
      rest = l.drop ((tableCell cfg b0).length - 1) := by
  cases bs with
  | nil => cases h
  | cons b0 l =>
    simp only [decode] at h
    split at h
    · cases h
    · cases h
      exact ⟨b0, l, rfl, by omega, rfl, rfl⟩

/-- The operand bytes that the decoder looks at are the first of the list, as far as the list goes. -/
theorem take_getD_pair {l : List Byte} {n : Nat} (hn : n ≤ 2) (hl : n ≤ l.length) :
    [l.getD 0 0, l.getD 1 0].take n = l.take n := by
  match n, l with
  | 0, _ => rfl
  | 1, _ :: _ => rfl
  | 2, _ :: _ :: _ => rfl

/-- Settles O3: an illegal byte is its own encoding, and any other byte the opcode of the instruction that its slot reads, the
bytes after it its operands. -/
theorem encodeInvertsDecode : Obligations.EncodeInvertsDecode := by
  intro cfg bs rest i h
  obtain ⟨b0, l, rfl, hlen, rfl, rfl⟩ := decode_ok_inv h
  cases hill : isIllegalByte cfg b0 with
  | true =>
    rw [decodeBytes_illegal hill, tableCell_illegal hill]
    exact ⟨hill, [b0], rfl, rfl⟩
  | false =>
    obtain ⟨ho, hi, hops, -⟩ := decodeBytes_legal hill (l.getD 0 0) (l.getD 1 0)
    refine ⟨Machine.wellFormed_of_legal ho hill hi, b0 :: l.take ((tableCell cfg b0).length - 1), ?_, ?_⟩
    · have hthree := (tableCell cfg b0).length_le_three
      rw [encode, ho, hops, take_getD_pair (by omega) hlen]
      rfl
    · rw [List.cons_append, List.take_append_drop]

/-- Settles O4: three bytes are never too few, and the slot of a byte that is not illegal holds no illegal marker. -/
theorem decodingIsTotal : Obligations.DecodingIsTotal := by
  refine ⟨fun _ => rfl, fun cfg b0 b1 b2 rest => ⟨decodeBytes cfg b0 b1 b2, ?read, ?marker⟩⟩
  case read =>
    have hpos := (tableCell cfg b0).length_pos
    have hthree := (tableCell cfg b0).length_le_three
    have hdrop : (b0 :: b1 :: b2 :: rest).drop (tableCell cfg b0).length =
        (b1 :: b2 :: rest).drop ((tableCell cfg b0).length - 1) := by
      rw [← Nat.sub_add_cancel hpos, List.drop_succ_cons, Nat.add_sub_cancel]
    rw [decodeBytes_length, hdrop, decode, if_neg (by simp only [List.length_cons]; omega)]
    rfl
  case marker =>
    refine ⟨fun h => decodeBytes_illegal h b1 b2, fun h => ?_⟩
    by_contra hl
    exact (decodeBytes_legal (Bool.eq_false_iff.mpr hl) b1 b2).2.1 b0 h

/-- Settles O1: each byte string is in the matrix. -/
theorem specWordsDecodeAsWritten : Obligations.SpecWordsDecodeAsWritten :=
  ⟨rfl, rfl, rfl, rfl, rfl, rfl, rfl, rfl, rfl, rfl, rfl, rfl⟩

end Sys2Proof
end

section
/-! The step: it runs the instruction that the bytes at PC encode, and no state makes it refuse (spec 60_exceptions.md R400 to
R407, R430). -/

namespace Sys2Proof.Machine

/-- Settles O5: `Step()` is exec of the decoded instruction, with no call pending or as the call itself. -/
theorem stepRunsTheDecodedInstruction : Obligations.StepRunsTheDecodedInstruction := by
  intro s i rest calls hdec
  have hi : fetchInstr s = i := fetchInstr_of_decode hdec
  refine ⟨fun hh => ?none, fun hh => ?call⟩
  case none =>
    rw [step_nil hh, stepInstr_eq, hi]
    rfl
  case call =>
    have hi' : fetchInstr { s with host := calls } = i := hi
    rw [step_cons hh, hostCall, stepInstr_eq, hi']
    rfl

/-- A list that agrees with a longer one at each of its places is the beginning of it. -/
theorem append_drop_of_getElem_eq {l bytes : List Byte} (hlen : bytes.length ≤ l.length)
    (h : ∀ k, (hk : k < bytes.length) → l[k] = bytes[k]) : bytes ++ l.drop bytes.length = l := by
  have htake : l.take bytes.length = bytes :=
    List.ext_getElem (by simpa using hlen) fun k _ hk => by rw [List.getElem_take, h k hk]
  calc bytes ++ l.drop bytes.length = l.take bytes.length ++ l.drop bytes.length := by rw [htake]
    _ = l := List.take_append_drop _ l

/-- Settles O6: the three bytes at PC begin with the encoding, so they decode to the instruction (O2), and the step runs what
they decode to (O5). -/
theorem stepRunsTheInstructionInMemory : Obligations.StepRunsTheInstructionInMemory := by
  intro s i bytes hh hw henc hmem
  obtain ⟨_, henc', hlen, -⟩ := decodeInvertsEncode s.cfg i [] hw
  cases henc.symm.trans henc'
  have hthree : bytes.length ≤ 3 := by rw [hlen, Instr.length]; cases i.mode <;> decide
  have hat : ∀ k, (hk : k < bytes.length) →
      [s.peek s.PC, s.peek (s.PC + 1), s.peek (s.PC + 2)][k]'(Nat.lt_of_lt_of_le hk hthree) = bytes[k] := by
    intro k hk
    rw [← hmem k hk]
    match k, Nat.lt_of_lt_of_le hk hthree with
    | 0, _ => exact congrArg s.peek (BitVec.add_zero s.PC).symm
    | 1, _ => rfl
    | 2, _ => rfl
  obtain ⟨_, hb, -, hdec⟩ := decodeInvertsEncode s.cfg i
    ([s.peek s.PC, s.peek (s.PC + 1), s.peek (s.PC + 2)].drop bytes.length) hw
  cases henc.symm.trans hb
  rw [append_drop_of_getElem_eq hthree hat] at hdec
  exact (stepRunsTheDecodedInstruction s i _ [] hdec).1 hh

/-- Every outcome of `Step()`: the instruction at PC is well-formed, and that completes or stops after the opcode fetch. -/
theorem stepInstr_cases (s : State) :
    (∃ t, stepInstr s = .next t) ∨ stepInstr s = .fault (.illegalOpcode s.PC (s.peek s.PC) [rd s s.PC]) ∨
      stepInstr s = .fault (.unsupportedInstruction s.PC (s.peek s.PC) [rd s s.PC]) := by
  obtain ⟨hw, ho⟩ := fetchInstr_wellFormed s
  rw [stepInstr_eq]
  obtain ⟨t, ht⟩ | hill | huns := exec_wellFormed (s := s.beginTransaction) hw ho
  · exact .inl ⟨_, congrArg retired ht⟩
  · exact .inr (.inl (congrArg retired hill))
  · exact .inr (.inr (congrArg retired huns))

/-- Settles O39: `Step()` has these outcomes, and every other host call answers a next state. -/
theorem stepNeverRefusesOrPanics : Obligations.StepNeverRefusesOrPanics := by
  intro s
  cases hh : s.host with
  | nil => exact step_cases hh
  | cons c calls =>
    rw [step_cons hh]
    by_cases hc : c = .step
    · subst hc
      exact stepInstr_cases { s with host := calls }
    · exact .inl ⟨_, hostCall_next hc _⟩

/-- Settles O37: ILLEGAL's meaning is the fault, and an illegal byte at PC is read as ILLEGAL. -/
theorem illegalBytesFault : Obligations.IllegalBytesFault := by
  refine fun s op => ⟨rfl, ?_⟩
  rintro hh rfl hl
  exact step_illegalByte hh hl

/-- A term that no table has stops with the internal-consistency fault, after the opcode fetch (R405). -/
theorem exec_of_no_opcode {i : Instr} (ho : opcodeOf i = none) (s : State) :
    exec i s = .fault (.unhandledAddressingMode s.PC (s.peek s.PC) (s.trace ++ [rd s s.PC])) := by
  have hs : i.stops = false := by
    cases i
    case wai | stp | illegal => cases ho
    all_goals rfl
  rw [exec_eq_runEntry hs, runEntry, ho, State.fetch_trace]

/-- A term that no table has is in a mode that its mnemonic has on no variant: CMOS65C02 with P2 has every mode there is (R97). -/
theorem hasMode_of_no_opcode {i : Instr} (ho : opcodeOf i = none) : i.hasMode = false := by
  have hi : ∀ op, i ≠ .illegal op := by rintro op rfl; cases ho
  have hu : i.available {} = false := by rw [available_eq_usable {} hi, usable, ho]
  simpa [Instr.available] using hu

/-- Settles O38: the guard that every meaning passes. -/
theorem whichTermsRun : Obligations.WhichTermsRun := fun _ s hs =>
  ⟨fun hw => ⟨_, exec_next hw hs⟩, fun _ hw ho => exec_of_not_wellFormed hs hw ho,
    fun ho => ⟨hasMode_of_no_opcode ho, exec_of_no_opcode ho s⟩⟩

/-- Settles O7: a setter is the update of its one field. -/
theorem hostSettersWriteOneThing : Obligations.HostSettersWriteOneThing := by
  intro s calls v w b p hp
  simp only [List.mem_cons, List.not_mem_nil, or_false] at hp
  obtain rfl | rfl | rfl | rfl | rfl | rfl | rfl | rfl | rfl | rfl | rfl | rfl | rfl := hp
  all_goals rfl

end Sys2Proof.Machine
end

section
/-! The host's Reset, NMI and IRQ: NMI and a taken IRQ are one operation with another vector (spec 60_exceptions.md R410 to
R416). -/

namespace Sys2Proof.Machine

/-- A call other than Step(), as the next pending call, is a step that makes the call from an empty trace. -/
theorem step_hostCall {s : State} {c : HostCall} {calls : List HostCall} (hh : s.host = c :: calls) (hc : c ≠ .step) :
    step s = .next ({ s with host := calls, trace := [] }.hostSet c) := by
  rw [step_cons hh, hostCall_next hc]
  rfl

/-- The flags on entry, in the form of the statements. -/
theorem State.enterFlags_eq (s : State) :
    s.enterFlags = { s with I := true, D := if s.cfg.variant = Variant.cmos65C02 then false else s.D } := by
  rw [State.enterFlags]
  cases s.cfg.variant <;> rfl

/-- Taking an exception: the registers, field by field. -/
theorem State.regs_interruptEntry_eq (s : State) {vec : Word} (b counted : Bool) (h : 0x200 ≤ vec.toNat)
    (h' : vec.toNat < 65535) :
    (s.interruptEntry vec b counted).regs =
      { s with S := s.S - 3, I := true, D := if s.cfg.variant = Variant.cmos65C02 then false else s.D,
               PC := s.vectorWord vec }.regs := by
  rw [State.regs_interruptEntry _ _ _ _ h h', State.enterFlags_eq]
  rfl

/-- A host interrupt: an exception entry with Break 0, then a free value in the instruction counter. -/
theorem State.regs_freeInstrs_interruptEntry (s : State) {vec : Word} (counted : Bool) (h : 0x200 ≤ vec.toNat)
    (h' : vec.toNat < 65535) :
    let t := (s.interruptEntry vec false counted).freeInstrs
    t.regs = { s with S := s.S - 3, I := true, D := if s.cfg.variant = Variant.cmos65C02 then false else s.D,
                      PC := s.vectorWord vec, instrs := t.instrs, free := t.free }.regs := by
  have hfree : (s.interruptEntry vec false counted).free = s.free := s.interruptEntry_free vec false counted
  intro t
  show (s.interruptEntry vec false counted).freeInstrs.regs = _
  rw [State.regs_freeInstrs, State.regs_interruptEntry_eq s false counted h h']
  simp only [t, State.freeInstrs_instrs, State.freeInstrs_free, hfree]
  rfl

/-- An exception entry makes three counted accesses, or with a counted vector fetch five. -/
theorem State.interruptEntry_cycles (s : State) (vec : Word) (b counted : Bool) :
    (s.interruptEntry vec b counted).cycles = s.cycles + if counted then 5 else 3 := by
  rw [State.interruptEntry, State.fetchVector, State.setPC_cycles]
  cases counted <;> simp [State.pushWord]

/-- Settles O40: NMI is the host interrupt through 0xFFFA. -/
theorem nmiTakesTheException : Obligations.NmiTakesTheException := by
  intro s calls hh
  refine ⟨_, step_hostCall hh nofun, ?regs, ?memory, ?accesses⟩
  case regs => exact State.regs_freeInstrs_interruptEntry { s with host := calls, trace := [] } _ (by decide) (by decide)
  case memory => exact State.peek_interruptEntry { s with host := calls, trace := [] } _ _ _
  case accesses => exact State.trace_interruptEntry { s with host := calls, trace := [] } _ _ _ (by decide) (by decide)

/-- Settles O41: IRQ with I clear is the host interrupt through 0xFFFE. -/
theorem irqIsTakenWhenInterruptsAreEnabled : Obligations.IrqIsTakenWhenInterruptsAreEnabled := by
  intro s calls hh hI
  have hirq := State.irq_taken (s := { s with host := calls, trace := [] }) hI
  refine ⟨_, (step_hostCall hh nofun).trans (congrArg _ hirq), ?regs, ?memory, ?accesses, ?cycles⟩
  case regs => exact State.regs_freeInstrs_interruptEntry { s with host := calls, trace := [] } _ (by decide) (by decide)
  case memory => exact State.peek_interruptEntry { s with host := calls, trace := [] } _ _ _
  case accesses => exact State.trace_interruptEntry { s with host := calls, trace := [] } _ _ _ (by decide) (by decide)
  case cycles => exact State.interruptEntry_cycles { s with host := calls, trace := [] } _ _ _

/-- Settles O42: IRQ with I set leaves the state as it is. -/
theorem maskedIrqIsDropped : Obligations.MaskedIrqIsDropped := fun s calls hh hI =>
  (step_hostCall hh nofun).trans (congrArg _ (State.irq_masked (s := { s with host := calls, trace := [] }) hI))

/-- After Reset() the host sees the status with its Unused bit alone. -/
theorem State.getP_hostReset (s : State) : s.hostReset.getP = 0x20 := by simp [State.getP, State.pack, State.hostReset, flagBits]

/-- Settles O43: Reset() writes the registers and flags, and reads PC from its vector. -/
theorem resetOperationZeroesTheRegisters : Obligations.ResetOperationZeroesTheRegisters := fun _ _ hh =>
  ⟨_, step_hostCall hh nofun, rfl, rfl, rfl, rfl, rfl, rfl, rfl, rfl, rfl, rfl, State.getP_hostReset _, rfl, rfl, rfl, rfl, rfl⟩

/-- Settles O44: the fields of State.reset. -/
theorem resetStateIsAsTheSpecSays : Obligations.ResetStateIsAsTheSpecSays :=
  ⟨rfl, rfl, rfl, rfl, rfl, rfl, rfl, rfl, rfl, rfl, rfl, rfl⟩

/-- Settles O52: memory is empty at reset. -/
theorem invariantHoldsAtReset : Obligations.InvariantHoldsAtReset := memWf_reset

/-- Settles O46: a write, and a push as the write at the stack address. -/
theorem memoryReadsTheLastWrite : Obligations.MemoryReadsTheLastWrite := by
  intro s a b v
  refine ⟨s.peek_writeBus a b v, ?pushed, ?pointer, s.pulled_push v, ?pulled⟩
  case pushed => rw [State.peek_push]; simp only [eq_stackAddr_iff]
  case pointer => rw [State.push_S]; bv_omega
  case pulled => rw [State.pull_S, State.push_S]; bv_omega

end Sys2Proof.Machine
end

section
/-! The effective address of each addressing mode as a number, and page crossing as the carry of the low byte (spec
40_addressing_modes.md R124 to R134). -/

namespace Sys2Proof.Machine

theorem State.peek_zeroPage (s : State) (b : Byte) : s.peek (zeroPage b) = memRead s.mem b.toNat := by
  rw [State.peek, zeroPage_toNat]

/-- A pointer in page 0 as a number: little-endian, its second byte wrapping within the page. -/
theorem State.zpPointer_toNat (s : State) (b : Byte) :
    (s.zpPointer b).toNat = (memRead s.mem b.toNat).toNat + 256 * (memRead s.mem ((b.toNat + 1) % 256)).toNat := by
  rw [State.zpPointer, word_toNat, State.peek_zeroPage, State.peek_zeroPage, BitVec.toNat_add, Nat.add_comm]
  rfl

/-- The effective address is the base plus the index, modulo 65536. -/
theorem State.ea_toNat (s : State) (o : DataOperand) :
    (s.ea o).toNat = ((s.eaBase o).toNat + (s.eaIndex o).toNat) % 65536 := by
  rw [State.ea, BitVec.toNat_add, word_toNat]
  simp

/-- In a mode without an index the effective address is the base. -/
theorem State.ea_eq_base {s : State} {o : DataOperand} (h : s.eaIndex o = 0) : s.ea o = s.eaBase o := by
  rw [State.ea, h]
  exact BitVec.add_zero _

/-- Settles O8: page 0 sums wrap in a byte, and the others in a word. -/
theorem effectiveAddressOfEachMode : Obligations.EffectiveAddressOfEachMode := by
  intro s b w page0
  have hpointer : ∀ z : Byte, (s.zpPointer z).toNat = page0 z.toNat := by
    intro z
    simp only [page0, s.zpPointer_toNat, Nat.mod_eq_of_lt z.isLt]
  have hwrap : ∀ n, page0 (n % 256) = page0 n := by
    intro n
    simp only [page0, Nat.mod_mod, Nat.mod_add_mod]
  refine ⟨?imm, ?zp, ?zpx, ?zpy, ?abs, s.ea_toNat (.abx w), s.ea_toNat (.aby w), ?izx, ?izy, ?izp, ?operand⟩
  case imm => rw [State.ea_imm, BitVec.toNat_add]; rfl
  case zp => rw [State.ea_zp, zeroPage_toNat]
  case zpx => rw [State.ea_eq_base rfl, State.eaBase, zeroPage_toNat, BitVec.toNat_add]
  case zpy => rw [State.ea_eq_base rfl, State.eaBase, zeroPage_toNat, BitVec.toNat_add]
  case abs => exact State.ea_eq_base rfl
  case izx => rw [State.ea_eq_base rfl, State.eaBase, hpointer, BitVec.toNat_add, hwrap]
  case izy => rw [State.ea_toNat, State.eaBase, hpointer]; rfl
  case izp => rw [State.ea_eq_base rfl, State.eaBase, hpointer]
  case operand => intro o; cases o <;> rfl

/-- Settles O9: the index is less than a page, so the sum leaves the page exactly when the low bytes carry, also at the wrap of
the address space. -/
theorem pageCrossingIsTheNinthBit : Obligations.PageCrossingIsTheNinthBit := by
  intro s o
  have hidx := (s.eaIndex o).isLt
  have hbase := (s.eaBase o).isLt
  have hea := s.ea_toNat o
  have hunc : (s.unc o).toNat =
      256 * ((s.eaBase o).toNat / 256) + ((s.eaBase o).toNat % 256 + (s.eaIndex o).toNat) % 256 := by
    rw [State.unc, word_toNat, hi8_toNat, BitVec.toNat_add, lo8_toNat]
  have hcross : s.crossed o = true ↔ 256 ≤ (s.eaBase o).toNat % 256 + (s.eaIndex o).toNat := by
    rw [State.crossed, bne_iff_ne, ne_eq, BitVec.toNat_eq, hi8_toNat, hi8_toNat]
    omega
  refine ⟨hcross, fun h => ?same, fun h => ?below⟩
  case same =>
    have hcarry := mt hcross.mpr (Bool.eq_false_iff.mp h)
    apply BitVec.eq_of_toNat_eq
    omega
  case below =>
    have hcarry := hcross.mp h
    apply BitVec.eq_of_toNat_eq
    have hpage : (0x0100 : Word).toNat = 256 := rfl
    rw [BitVec.toNat_sub, hunc, hea, hpage]
    omega

end Sys2Proof.Machine
end

section
/-! The read class: loads, logic, compares and BIT make the accesses of a load and write registers and flags (spec
41_read_class.md R150 to R161). -/

namespace Sys2Proof.Machine

/-- What the read class has in common: the accesses of a load move PC past the instruction, and the registers and flags are
written after them. -/
theorem completes_load {i : Instr} {s : State} {o : DataOperand} (f : State → State) (hs : i.stops = false)
    (hmode : i.mode = o.mode) (heff : effect i s = f (s.load o)) (hf : WritesRegisters f) (hw : i.wellFormed s.cfg = true) :
    Completes i s (f { s with PC := s.after i }) := by
  refine ⟨f (s.load o), heff ▸ exec_next hw hs, hf.arch_congr ?_⟩
  rw [State.arch_load, ← hmode]
  rfl

/-- Settles O10: each load fills another register. -/
theorem loadsFillTheirRegister : Obligations.LoadsFillTheirRegister := fun s o =>
  ⟨completes_load (i := .lda o) (fun t => (t.setA (s.operand o)).setNZ (s.operand o)) rfl rfl rfl fun _ => ⟨rfl, rfl, rfl⟩,
    completes_load (i := .ldx o) (fun t => (t.setX (s.operand o)).setNZ (s.operand o)) rfl rfl rfl fun _ => ⟨rfl, rfl, rfl⟩,
    completes_load (i := .ldy o) (fun t => (t.setY (s.operand o)).setNZ (s.operand o)) rfl rfl rfl fun _ => ⟨rfl, rfl, rfl⟩⟩

/-- What AND, ORA and EOR have in common: A, N and Z from one result. -/
theorem completes_logic {i : Instr} {s : State} {o : DataOperand} {r : Byte} (hs : i.stops = false) (hmode : i.mode = o.mode)
    (heff : effect i s = ((s.load o).setA r).setNZ r) (hw : i.wellFormed s.cfg = true) :
    Completes i s { s with A := r, Z := r == 0, N := bitOf r 7, PC := s.after i } :=
  completes_load (fun t => (t.setA r).setNZ r) hs hmode heff (fun _ => ⟨rfl, rfl, rfl⟩) hw

/-- Settles O11: the three are one operation with another result. -/
theorem logicWorksOnTheAccumulator : Obligations.LogicWorksOnTheAccumulator := by
  intro s o m p hp hw
  simp only [List.mem_cons, List.not_mem_nil, or_false] at hp
  obtain rfl | rfl | rfl := hp
  · exact completes_logic rfl rfl rfl hw
  · exact completes_logic rfl rfl rfl hw
  · exact completes_logic rfl rfl rfl hw

/-- Z and N of a compare as statements about unsigned bytes. -/
theorem State.compare_eq (s : State) (r m : Byte) :
    s.compare r m = { s with C := decide (m.toNat ≤ r.toNat), Z := decide (r.toNat = m.toNat),
                             N := decide (128 ≤ (r.toNat + 256 - m.toNat) % 256) } := by
  have hZ : (r == m) = decide (r.toNat = m.toNat) := by
    rw [Bool.eq_iff_iff, beq_iff_eq, decide_eq_true_iff, BitVec.toNat_eq]
  have hN : bitOf (r - m) 7 = decide (128 ≤ (r.toNat + 256 - m.toNat) % 256) := by
    have hm := m.isLt
    have hsub : (r - m).toNat = (r.toNat + 256 - m.toNat) % 256 := by rw [BitVec.toNat_sub]; omega
    rw [bitOf_seven, hsub]
  rw [State.compare, hZ, hN]

/-- What CMP, CPX and CPY have in common: a compare with a register. -/
theorem completes_compare {i : Instr} {s : State} {o : DataOperand} {r : Byte} (hs : i.stops = false) (hmode : i.mode = o.mode)
    (heff : effect i s = (s.load o).compare r (s.operand o)) (hw : i.wellFormed s.cfg = true) :
    Completes i s { s with C := decide ((s.operand o).toNat ≤ r.toNat), Z := decide (r.toNat = (s.operand o).toNat),
                           N := decide (128 ≤ (r.toNat + 256 - (s.operand o).toNat) % 256), PC := s.after i } := by
  have h := completes_load (fun t => t.compare r (s.operand o)) hs hmode heff (fun _ => ⟨rfl, rfl, rfl⟩) hw
  rwa [State.compare_eq] at h

/-- Settles O12: the three are one operation with another register. -/
theorem comparesWriteThreeFlags : Obligations.ComparesWriteThreeFlags := by
  intro s o m p hp hw
  simp only [List.mem_cons, List.not_mem_nil, or_false] at hp
  obtain rfl | rfl | rfl := hp
  · exact completes_compare rfl rfl rfl hw
  · exact completes_compare rfl rfl rfl hw
  · exact completes_compare rfl rfl rfl hw

/-- BIT: the flags that its form writes. -/
theorem completes_bit {s : State} {o : DataOperand} (hw : (Instr.bit o).wellFormed s.cfg = true) :
    Completes (.bit o) s (State.bitFlags { s with PC := s.after (.bit o) } o (s.operand o)) :=
  completes_load (fun t => t.bitFlags o (s.operand o)) rfl rfl rfl (fun _ => by cases o <;> exact ⟨rfl, rfl, rfl⟩) hw

/-- Settles O13: in each form the flags are those that `State.bitFlags` writes. -/
theorem bitTestsItsOperand : Obligations.BitTestsItsOperand := by
  intro s o hw
  have h := completes_bit hw
  cases o <;> exact h

end Sys2Proof.Machine
end

section
/-! The read-modify-write class: the result goes to A or to one byte of memory, and flags are written after it (spec 44_rmw.md
R210 to R221). -/

namespace Sys2Proof.Machine

/-- An update of flags alone: it does not look at memory, and leaves A and memory as they are. -/
def WritesFlags (f : State → State) : Prop :=
  ∀ t : State, (f t).arch = f t.arch ∧ (f t).regs = f t.regs ∧ (f t).mem = t.mem

/-- A read-modify-write in memory that then writes flags. -/
theorem completesWith_modify {i : Instr} {s : State} {o : RmwOperand} {d : DataOperand} {new : Byte} (f : State → State)
    (hd : rmwData o = some d) (hs : i.stops = false) (hmode : i.mode = o.mode) (heff : effect i s = f (s.modify o new))
    (hf : WritesFlags f) (hw : i.wellFormed s.cfg = true) :
    CompletesWith i s (f { s with PC := s.after i }) (s.withByte (s.ea d) new) := by
  obtain ⟨-, hregs, hmem⟩ := hf (s.modify o new)
  refine ⟨f (s.modify o new), heff ▸ exec_next hw hs, ?registers, fun a => ?memory⟩
  case registers =>
    rw [hregs, s.regs_modify hd, (hf _).2.1, ← hmode]
    rfl
  case memory => rw [State.peek_congr hmem, s.peek_modify hd, State.withByte]

/-- A read-modify-write that then writes flags which do not depend on A, whatever its destination. -/
theorem completesModify {i : Instr} {s : State} {o : RmwOperand} {new : Byte} (f : State → State) (hs : i.stops = false)
    (hmode : i.mode = o.mode) (heff : effect i s = f (s.modify o new)) (hf : WritesFlags f)
    (hA : ∀ (t : State) v, f (t.setA v) = (f t).setA v) (hw : i.wellFormed s.cfg = true) :
    CompletesModify i s (f { s with PC := s.after i }) o new := by
  unfold CompletesModify
  cases hd : rmwData o with
  | some d => exact completesWith_modify f hd hs hmode heff hf hw
  | none =>
    have hacc : o = .acc := by
      cases o
      case acc => rfl
      all_goals cases hd
    subst hacc
    refine ⟨f (s.modify .acc new), heff ▸ exec_next hw hs, ?_⟩
    have hafter : s.after i = s.PC + 1 := by rw [State.after, Instr.length, hmode]; rfl
    rw [hafter, (hf _).1]
    show f ((s.arch.setPC (s.PC + 1)).setA new) = ((f (s.setPC (s.PC + 1))).setA new).arch
    rw [State.arch_setA, (hf _).1, hA, State.arch_setPC]

/-! ## Shifts and rotates as numbers -/

theorem aslByte_eq (v : Byte) : aslByte v = BitVec.ofNat 8 (2 * v.toNat) := by
  apply BitVec.eq_of_toNat_eq
  rw [aslByte, BitVec.toNat_shiftLeft, BitVec.toNat_ofNat, Nat.shiftLeft_eq, Nat.mul_comm]

theorem lsrByte_eq (v : Byte) : lsrByte v = BitVec.ofNat 8 (v.toNat / 2) := by
  have hv := v.isLt
  apply BitVec.eq_of_toNat_eq
  rw [lsrByte, BitVec.toNat_ushiftRight, BitVec.toNat_ofNat, Nat.shiftRight_eq_div_pow]
  omega

theorem flagBits_toNat (c : Bool) (mask : Byte) : (flagBits c mask).toNat = mask.toNat * flagNat c := by
  cases c
  · exact (Nat.mul_zero _).symm
  · exact (Nat.mul_one _).symm

/-- A carry that enters at a bit where the shifted byte is 0 adds its mask. -/
theorem or_flagBits_eq_add {x mask : Byte} (h : x &&& mask = 0) (c : Bool) : x ||| flagBits c mask = x + flagBits c mask := by
  refine (BitVec.add_eq_or_of_and_eq_zero x _ ?_).symm
  cases c
  · exact BitVec.and_zero
  · exact h

theorem rolByte_eq (c : Bool) (v : Byte) : rolByte c v = BitVec.ofNat 8 (2 * v.toNat + flagNat c) := by
  have hbit : v <<< 1 &&& 0x01 = 0 := by ext k hk; interval_cases k <;> simp
  apply BitVec.eq_of_toNat_eq
  rw [rolByte, or_flagBits_eq_add hbit, BitVec.toNat_add, flagBits_toNat, BitVec.toNat_shiftLeft, BitVec.toNat_ofNat,
    Nat.shiftLeft_eq, Nat.mod_add_mod, Nat.mul_comm v.toNat]
  exact congrArg (fun k => (2 * v.toNat + k) % 2 ^ 8) (Nat.one_mul _)

theorem rorByte_eq (c : Bool) (v : Byte) : rorByte c v = BitVec.ofNat 8 (v.toNat / 2 + 128 * flagNat c) := by
  have hbit : v >>> 1 &&& 0x80 = 0 := by ext k hk; interval_cases k <;> simp
  apply BitVec.eq_of_toNat_eq
  rw [rorByte, or_flagBits_eq_add hbit, BitVec.toNat_add, flagBits_toNat, BitVec.toNat_ushiftRight, BitVec.toNat_ofNat, Nat.shiftRight_eq_div_pow]
  rfl
theorem bitOf_zero (v : Byte) : bitOf v 0 = decide (v.toNat % 2 = 1) := by
  rw [bitOf, ← BitVec.testBit_toNat, Nat.testBit_zero]

/-- Z and N of a result given as a number. -/
theorem State.setNZ_ofNat (s : State) (n : Nat) :
    s.setNZ (BitVec.ofNat 8 n) = { s with Z := decide (n % 256 = 0), N := decide (128 ≤ n % 256) } := by
  have hZ : (BitVec.ofNat 8 n == 0) = decide (n % 256 = 0) := by
    rw [Bool.eq_iff_iff, beq_iff_eq, decide_eq_true_iff, BitVec.toNat_eq, BitVec.toNat_ofNat]
    rfl
  rw [State.setNZ, hZ, bitOf_seven, BitVec.toNat_ofNat]

/-- What the shifts and rotates have in common: a result and a bit shifted out, given as numbers. -/
theorem completesModify_shift {i : Instr} {s : State} {o : RmwOperand} {new : Byte} {out c : Bool} {n : Nat}
    (hs : i.stops = false) (hmode : i.mode = o.mode) (heff : effect i s = ((s.modify o new).setC out).setNZ new)
    (hnew : new = BitVec.ofNat 8 n) (hout : out = c) (hw : i.wellFormed s.cfg = true) :
    CompletesModify i s { s with C := c, Z := decide (n % 256 = 0), N := decide (128 ≤ n % 256), PC := s.after i } o
      (BitVec.ofNat 8 n) := by
  subst hnew hout
  have h := completesModify (fun t => (t.setC out).setNZ (BitVec.ofNat 8 n)) hs hmode heff (fun _ => ⟨rfl, rfl, rfl⟩)
    (fun _ _ => rfl) hw
  rwa [State.setNZ_ofNat] at h

/-- Settles O19: the four are one operation with another result and another bit shifted out. -/
theorem shiftsAndRotatesMoveOneBit : Obligations.ShiftsAndRotatesMoveOneBit := by
  intro s o v c p hp hw
  simp only [List.mem_cons, List.not_mem_nil, or_false] at hp
  obtain rfl | rfl | rfl | rfl := hp
  · exact completesModify_shift rfl rfl rfl (aslByte_eq _) (bitOf_seven _) hw
  · exact completesModify_shift rfl rfl rfl (rolByte_eq _ _) (bitOf_seven _) hw
  · exact completesModify_shift rfl rfl rfl (lsrByte_eq _) (bitOf_zero _) hw
  · exact completesModify_shift rfl rfl rfl (rorByte_eq _ _) (bitOf_zero _) hw

/-- Settles O20: INC and DEC are one operation with another result. -/
theorem incAndDecWrapModulo256 : Obligations.IncAndDecWrapModulo256 := by
  intro s o p hp hw
  simp only [List.mem_cons, List.not_mem_nil, or_false] at hp
  obtain rfl | rfl := hp
  · exact completesModify (i := .inc o) (·.setNZ (s.rmwOld o + 1)) rfl rfl rfl (fun _ => ⟨rfl, rfl, rfl⟩) (fun _ _ => rfl) hw
  · exact completesModify (i := .dec o) (·.setNZ (s.rmwOld o - 1)) rfl rfl rfl (fun _ => ⟨rfl, rfl, rfl⟩) (fun _ _ => rfl) hw

/-- A mnemonic without an accumulator form has a memory operand in its well-formed terms. -/
theorem rmwData_of_wellFormed {f : RmwOperand → Instr} {cfg : Config} {o : RmwOperand} (hs : (f o).stops = false)
    (hacc : opcodeOf (f .acc) = none) (hw : (f o).wellFormed cfg = true) : ∃ d, rmwData o = some d := by
  obtain ⟨op, ho, -⟩ := legal_of_wellFormed hw (ne_illegal_of_stops hs)
  cases o
  case acc => cases hacc.symm.trans ho
  all_goals exact ⟨_, rfl⟩

/-- What TSB and TRB have in common: a result in memory, and Z from A, which the result leaves as it is. -/
theorem completesModify_setZAnd {f : RmwOperand → Instr} {s : State} {o : RmwOperand} {new : Byte} (hs : (f o).stops = false)
    (hacc : opcodeOf (f .acc) = none) (hmode : (f o).mode = o.mode)
    (heff : effect (f o) s = (s.modify o new).setZAnd (s.rmwOld o)) (hw : (f o).wellFormed s.cfg = true) :
    CompletesModify (f o) s { s with Z := (s.A &&& s.rmwOld o) == 0, PC := s.after (f o) } o new := by
  obtain ⟨d, hd⟩ := rmwData_of_wellFormed hs hacc hw
  have h := completesWith_modify (fun t => t.setZAnd (s.rmwOld o)) hd hs hmode heff (fun _ => ⟨rfl, rfl, rfl⟩) hw
  unfold CompletesModify
  rw [hd]
  exact h

/-- Settles O21: TSB and TRB are one operation with another result. -/
theorem testAndSetOrResetBits : Obligations.TestAndSetOrResetBits := by
  intro s o v p hp hw
  simp only [List.mem_cons, List.not_mem_nil, or_false] at hp
  obtain rfl | rfl := hp
  · exact completesModify_setZAnd (f := .tsb) rfl rfl rfl rfl hw
  · have hnot : s.A ^^^ 0xFF = ~~~s.A := BitVec.xor_allOnes (x := s.A)
    exact hnot ▸ completesModify_setZAnd (f := .trb) rfl rfl rfl rfl hw

/-! ## The bit-numbered instructions -/

/-- What RMB0 to RMB7 have in common. -/
theorem exec_resetBit {i : Instr} {s : State} {n : Nat} {zp : Byte} (hs : i.stops = false) (heff : effect i s = s.resetBit n zp)
    (hn : n < 8) (hw : i.wellFormed s.cfg = true) :
    ∃ t, exec i s = .next t ∧ t.regs = { s with PC := s.PC + 2 }.regs ∧
      (∀ k, bitOf (t.peek (zeroPage zp)) k = if k = n then false else bitOf (s.peek (zeroPage zp)) k) ∧
      ∀ a, a ≠ zeroPage zp → t.peek a = s.peek a := by
  refine ⟨s.resetBit n zp, heff ▸ exec_next hw hs, s.regs_resetBit n zp, fun k => ?_, fun a ha => ?_⟩
  · rw [State.peek_resetBit, if_pos rfl, bitOf_and_not_bitMask _ hn]
  · rw [State.peek_resetBit, if_neg ha]

/-- What SMB0 to SMB7 have in common. -/
theorem exec_setBit {i : Instr} {s : State} {n : Nat} {zp : Byte} (hs : i.stops = false) (heff : effect i s = s.setBit n zp)
    (hn : n < 8) (hw : i.wellFormed s.cfg = true) :
    ∃ t, exec i s = .next t ∧ t.regs = { s with PC := s.PC + 2 }.regs ∧
      (∀ k, bitOf (t.peek (zeroPage zp)) k = if k = n then true else bitOf (s.peek (zeroPage zp)) k) ∧
      ∀ a, a ≠ zeroPage zp → t.peek a = s.peek a := by
  refine ⟨s.setBit n zp, heff ▸ exec_next hw hs, s.regs_setBit n zp, fun k => ?_, fun a ha => ?_⟩
  · rw [State.peek_setBit, if_pos rfl, bitOf_or_bitMask _ hn]
  · rw [State.peek_setBit, if_neg ha]

/-- Settles O22: the sixteen are two operations, each with its bit. -/
theorem bitNumberedInstructionsMoveOneBit : Obligations.BitNumberedInstructionsMoveOneBit := by
  intro s zp p hp hw
  simp only [List.mem_cons, List.not_mem_nil, or_false] at hp
  obtain rfl | rfl | rfl | rfl | rfl | rfl | rfl | rfl | hset := hp
  iterate 8 exact exec_resetBit rfl rfl (by norm_num) hw
  obtain rfl | rfl | rfl | rfl | rfl | rfl | rfl | rfl := hset
  iterate 8 exact exec_setBit rfl rfl (by norm_num) hw

end Sys2Proof.Machine
end

section
/-! Branches and jumps: PC alone is written (spec 45_branch_jump.md R240 to R252). -/

namespace Sys2Proof.Machine

theorem State.arch_fetch2_branch (s : State) (cond : Bool) (off : Byte) :
    (s.fetch.fetch.branch cond off).arch =
      { s with PC := if cond then BitVec.ofInt 16 (s.PC.toNat + 2 + off.toInt) else s.PC + 2 }.arch := by
  have htarget : s.PC + 2 + sext16 off = BitVec.ofInt 16 (s.PC.toNat + 2 + off.toInt) := add_sext16 s.PC 2 off
  rw [State.arch_branch, State.arch_fetch2, State.fetch2_PC, State.setPC_setPC, htarget]
  rfl

/-- What the nine branches have in common: the two instruction bytes, then the branch on a condition. -/
theorem completes_branch {i : Instr} {s : State} {cond : Bool} {off : Byte} (hs : i.stops = false)
    (heff : effect i s = s.fetch.fetch.branch cond off) (hw : i.wellFormed s.cfg = true) :
    Completes i s { s with PC := if cond then BitVec.ofInt 16 (s.PC.toNat + 2 + off.toInt) else s.PC + 2 } :=
  ⟨_, heff ▸ exec_next hw hs, s.arch_fetch2_branch cond off⟩

/-- Settles O23: the nine are one operation with another condition. -/
theorem branchesFollowTheirFlag : Obligations.BranchesFollowTheirFlag := by
  intro s off p hp hw
  simp only [List.mem_cons, List.not_mem_nil, or_false] at hp
  obtain rfl | rfl | rfl | rfl | rfl | rfl | rfl | rfl | rfl := hp
  iterate 9 exact completes_branch rfl rfl hw

/-- BBRn and BBSn: the target as a signed sum. -/
theorem State.arch_bitBranch_eq (s : State) (n : Nat) (want : Bool) (zp off : Byte) :
    (s.bitBranch n want zp off).arch =
      { s with PC := if bitOf (s.peek (zeroPage zp)) n == want then BitVec.ofInt 16 (s.PC.toNat + 3 + off.toInt)
                     else s.PC + 3 }.arch := by
  have htarget : s.PC + 3 + sext16 off = BitVec.ofInt 16 (s.PC.toNat + 3 + off.toInt) := add_sext16 s.PC 3 off
  rw [State.arch_bitBranch, htarget]
  rfl

/-- What BBRn and BBSn have in common: a branch on one bit having one value. -/
theorem completes_bitBranch {i : Instr} {s : State} {n : Nat} {want cond : Bool} {zp off : Byte} (hs : i.stops = false)
    (heff : effect i s = s.bitBranch n want zp off) (hcond : (bitOf (s.peek (zeroPage zp)) n == want) = cond)
    (hw : i.wellFormed s.cfg = true) :
    Completes i s { s with PC := if cond then BitVec.ofInt 16 (s.PC.toNat + 3 + off.toInt) else s.PC + 3 } := by
  subst hcond
  exact ⟨_, heff ▸ exec_next hw hs, s.arch_bitBranch_eq n want zp off⟩

/-- Settles O24: the sixteen are one operation with another bit and another wanted value. -/
theorem bitBranchesTestOneBit : Obligations.BitBranchesTestOneBit := by
  intro s zp off m p hp hw
  simp only [List.mem_cons, List.not_mem_nil, or_false] at hp
  obtain rfl | rfl | rfl | rfl | rfl | rfl | rfl | rfl | hset := hp
  iterate 8 exact completes_bitBranch (want := false) rfl rfl (beq_false _) hw
  obtain rfl | rfl | rfl | rfl | rfl | rfl | rfl | rfl := hset
  iterate 8 exact completes_bitBranch (want := true) rfl rfl (beq_true _) hw

/-- JMP goes to its target, in a mode that the variant has. -/
theorem completes_jmp {s : State} {o : JumpOperand} (hw : (Instr.jmp o).wellFormed s.cfg = true) :
    Completes (.jmp o) s { s with PC := s.jumpTarget o } := by
  refine ⟨_, exec_next hw rfl, ?_⟩
  show ((s.jumpAccess o).setPC (s.jumpTarget o)).arch = _
  rw [State.arch_setPC, State.arch_jumpAccess]
  rfl

/-- On NMOS6502 the second pointer byte comes from the same page: from its start when the pointer ends in 0xFF (R137). -/
theorem jumpPointerHigh_nmos {cfg : Config} (hv : cfg.variant = .nmos6502) (w : Word) :
    jumpPointerHigh cfg w = if w.toNat % 256 = 255 then w - 0xFF else w + 1 := by
  have hw := w.isLt
  have hpage : (jumpPointerHigh cfg w).toNat = 256 * (w.toNat / 256) + (w.toNat % 256 + 1) % 256 := by
    rw [jumpPointerHigh, hv, word_toNat, hi8_toNat, BitVec.toNat_add, lo8_toNat]
    rfl
  apply BitVec.eq_of_toNat_eq
  split
  · have h255 : (0xFF : Word).toNat = 255 := rfl
    rw [hpage, BitVec.toNat_sub, h255]
    omega
  · have h1 : (1 : Word).toNat = 1 := rfl
    rw [hpage, BitVec.toNat_add, h1]
    omega

theorem jumpPointerHigh_cmos {cfg : Config} (hv : cfg.variant = .cmos65C02) (w : Word) : jumpPointerHigh cfg w = w + 1 := by
  rw [jumpPointerHigh, hv]

theorem word_zero (b : Byte) : word 0 b = b.setWidth 16 := by
  apply BitVec.eq_of_toNat_eq
  rw [word_toNat, BitVec.toNat_setWidth]
  have hb := b.isLt
  have h0 : (0 : Byte).toNat = 0 := rfl
  omega

/-- The indexed jump is an instruction of CMOS65C02, whatever P2 is. -/
theorem wellFormed_jmp_iax {cfg : Config} (hv : cfg.variant = .cmos65C02) (w : Word) :
    (Instr.jmp (.iax w)).wellFormed cfg = true := by
  rw [wellFormed_eq_usable cfg (fun _ => Instr.noConfusion), usable]
  simp only [opcodeOf, jmpByte, isIllegalByte_cmos_of_unlisted hv (op := 0x7C) (by decide) (by decide), Bool.not_false]

/-- Settles O25: JMP goes to its target, and the target of each mode is written out. -/
theorem jumpGoesToItsTarget : Obligations.JumpGoesToItsTarget := by
  refine fun s w => ⟨?abs, fun hv => ?indNmos, fun hv => ?indCmos, fun hv => ?iax⟩
  case abs => exact completes_jmp (wellFormed_of_common rfl)
  case indNmos =>
    rw [← jumpPointerHigh_nmos hv]
    exact completes_jmp (wellFormed_of_common rfl)
  case indCmos =>
    rw [← jumpPointerHigh_cmos hv]
    exact completes_jmp (wellFormed_of_common rfl)
  case iax =>
    rw [← word_zero]
    exact completes_jmp (wellFormed_jmp_iax hv w)

end Sys2Proof.Machine
end

section
/-! Subroutines and BRK: what is pushed comes back (spec 46_stack_interrupt_shaped.md R279 to R281). -/

namespace Sys2Proof.Machine

theorem exec_jsr (w : Word) (s : State) : exec (.jsr w) s = .next (s.callSubroutine (lo8 w)) :=
  exec_next (wellFormed_of_common rfl) rfl

theorem exec_rts (s : State) : exec .rts s = .next s.returnSubroutine := exec_next (wellFormed_of_common rfl) rfl

theorem exec_brk (s : State) : exec .brk s = .next (s.fetch.fetch.interruptEntry vecIRQ true true) :=
  exec_next (wellFormed_of_common rfl) rfl

/-- Settles O28: the subroutine call, its high byte read as memory is after the pushes. -/
theorem jsrPushesThenReadsTheHighByte : Obligations.JsrPushesThenReadsTheHighByte := by
  refine fun s w => ⟨_, exec_jsr w s, s.regs_callSubroutine (lo8 w), s.peek_callSubroutine (lo8 w), fun hhi hne hne' => ?_⟩
  rw [State.callSubroutine_PC, State.peek_callSubroutine, if_neg hne, if_neg hne', hhi, word_hi8_lo8]

/-- Settles O29: the return from a subroutine. -/
theorem rtsReturnsAfterThePulledAddress : Obligations.RtsReturnsAfterThePulledAddress := fun s =>
  ⟨_, exec_rts s, s.arch_returnSubroutine⟩

theorem State.callSubroutine_S (s : State) (lo : Byte) : (s.callSubroutine lo).S = s.S - 2 := by
  rw [← State.regs_S, State.regs_callSubroutine, State.setPC_S, State.setS_S]

/-- The return undoes the call: S is back where it was, and the two bytes above it are the address that the call pushed. -/
theorem State.arch_returnSubroutine_callSubroutine (s : State) (lo : Byte) :
    (s.callSubroutine lo).returnSubroutine.arch = ((s.callSubroutine lo).arch.setS s.S).setPC (s.PC + 3) := by
  have hS1 : s.S - 2 + 1 = s.S - 1 := by bv_omega
  have hS2 : s.S - 2 + 2 = s.S := by bv_omega
  have hpc : s.PC + 2 + 1 = s.PC + 3 := by bv_omega
  have hhigh : (s.callSubroutine lo).peek (stackAddr s.S) = hi8 (s.PC + 2) := by
    rw [State.peek_callSubroutine, if_pos rfl]
  have hlow : (s.callSubroutine lo).peek (stackAddr (s.S - 1)) = lo8 (s.PC + 2) := by
    rw [State.peek_callSubroutine, if_neg (stackAddr_sub_one_ne _), if_pos rfl]
  rw [State.arch_returnSubroutine, State.callSubroutine_S, hS1, hS2, hhigh, hlow, word_hi8_lo8, hpc]

/-- Settles O30: the return undoes the call, and memory stays as the pushes left it. -/
theorem jsrThenRtsReturnsAfterTheCall : Obligations.JsrThenRtsReturnsAfterTheCall := by
  intro s t w ht
  cases (exec_jsr w s).symm.trans ht
  have hret := s.arch_returnSubroutine_callSubroutine (lo8 w)
  refine ⟨_, exec_rts _, ?registers, ?memory⟩
  case registers =>
    rw [regs_of_arch hret, State.regs_setPC, State.regs_setS, State.regs_arch, State.regs_callSubroutine]
    rfl
  case memory => rw [← State.arch_mem, hret, State.setPC_mem, State.setS_mem, State.arch_mem]

/-- Settles O31: after the fetch of its two bytes BRK is the exception entry with Break 1. -/
theorem brkTakesTheException : Obligations.BrkTakesTheException := by
  refine fun s => ⟨_, exec_brk s, ?registers, fun a => ?memory⟩
  case registers =>
    rw [State.regs_interruptEntry_eq _ _ _ (by decide) (by decide)]
    rfl
  case memory =>
    rw [State.peek_interruptEntry, State.fetch2_PC]
    rfl

end Sys2Proof.Machine
end

section
/-! The instructions with an implied operand that write a register (spec 47_implied.md R301 to R310). -/

namespace Sys2Proof.Machine

/-- Settles O33: each transfer writes another register from another, and N and Z but for TXS. -/
theorem transfersCopyTheRegister : Obligations.TransfersCopyTheRegister := by
  intro s u p hp
  simp only [List.mem_cons, List.not_mem_nil, or_false] at hp
  obtain rfl | rfl | rfl | rfl | rfl | rfl := hp
  · exact completes_implied (i := .tax) (fun t => (t.setX s.A).setNZ s.A) rfl rfl rfl (fun _ => ⟨rfl, rfl, rfl⟩)
  · exact completes_implied (i := .tay) (fun t => (t.setY s.A).setNZ s.A) rfl rfl rfl (fun _ => ⟨rfl, rfl, rfl⟩)
  · exact completes_implied (i := .txa) (fun t => (t.setA s.X).setNZ s.X) rfl rfl rfl (fun _ => ⟨rfl, rfl, rfl⟩)
  · exact completes_implied (i := .tya) (fun t => (t.setA s.Y).setNZ s.Y) rfl rfl rfl (fun _ => ⟨rfl, rfl, rfl⟩)
  · exact completes_implied (i := .tsx) (fun t => (t.setX s.S).setNZ s.S) rfl rfl rfl (fun _ => ⟨rfl, rfl, rfl⟩)
  · exact completes_implied (i := .txs) (·.setS s.X) rfl rfl rfl (fun _ => ⟨rfl, rfl, rfl⟩)

/-- Settles O34: each writes X or Y, and N and Z from it. -/
theorem indexIncrementsWrapModulo256 : Obligations.IndexIncrementsWrapModulo256 := fun s =>
  ⟨completes_implied (i := .inx) (fun t => (t.setX (s.X + 1)).setNZ (s.X + 1)) rfl rfl rfl (fun _ => ⟨rfl, rfl, rfl⟩),
    completes_implied (i := .iny) (fun t => (t.setY (s.Y + 1)).setNZ (s.Y + 1)) rfl rfl rfl (fun _ => ⟨rfl, rfl, rfl⟩),
    completes_implied (i := .dex) (fun t => (t.setX (s.X - 1)).setNZ (s.X - 1)) rfl rfl rfl (fun _ => ⟨rfl, rfl, rfl⟩),
    completes_implied (i := .dey) (fun t => (t.setY (s.Y - 1)).setNZ (s.Y - 1)) rfl rfl rfl (fun _ => ⟨rfl, rfl, rfl⟩)⟩

end Sys2Proof.Machine
end

section
/-! `Run()`: it asks before each instruction, and `Step()` does not (spec 60_exceptions.md R432). -/

namespace Sys2Proof.Machine

theorem run_stops {ask : State → Bool} {n : Nat} {s : State} (h : (ask s || stopsOnBreak s) = true) :
    run ask (n + 1) s = .stopped s := by
  rw [run, if_pos h]

theorem run_goes_on {ask : State → Bool} {n : Nat} {s t : State} (h : (ask s || stopsOnBreak s) = false)
    (ht : stepInstr s = .next t) : run ask (n + 1) s = run ask n t := by
  rw [run, h, if_neg Bool.false_ne_true, ht]

theorem run_faults {ask : State → Bool} {n : Nat} {s : State} {f : Fault} (h : (ask s || stopsOnBreak s) = false)
    (hf : stepInstr s = .fault f) : run ask (n + 1) s = .faulted f := by
  rw [run, h, if_neg Bool.false_ne_true, hf]

/-- No table has BRK's byte as an illegal one. -/
theorem isIllegalByte_brk (cfg : Config) : isIllegalByte cfg 0x00 = false := by
  obtain ⟨_, hop, hl⟩ := legal_of_wellFormed (cfg := cfg) (i := .brk) (wellFormed_of_common rfl)
    fun _ => Instr.noConfusion
  cases hop
  exact hl

/-- Settles O56: stop-on-break is asked by `Run()` alone; a single `Step()` at a BRK takes the exception. -/
theorem runStopsAtBreakWhenAsked : Obligations.RunStopsAtBreakWhenAsked := by
  intro ask n s
  refine ⟨fun hp7 hbrk => ?stopOnBreak, fun hask => ?asked, fun hask hno => ?goesOn, fun hbrk => ?single⟩
  case stopOnBreak => exact run_stops (by simp [stopsOnBreak, hp7, hbrk])
  case asked => exact run_stops (by rw [hask, Bool.true_or])
  case goesOn =>
    have h : (ask s || stopsOnBreak s) = false := by
      rw [hask, Bool.false_or, stopsOnBreak, Bool.and_eq_false_iff, beq_eq_false_iff_ne]
      exact hno
    exact ⟨fun t => run_goes_on h, fun f => run_faults h⟩
  case single =>
    have hfetch : fetchInstr s = .brk := by
      rw [fetchInstr, hbrk, decodeBytes_of_opcodeOf (i := .brk) rfl (fun _ => Instr.noConfusion) rfl (isIllegalByte_brk s.cfg)]
    obtain ⟨t, ht, hregs, -⟩ := brkTakesTheException s.beginTransaction
    refine ⟨{ t with instrs := t.instrs + 1 }, ?_, (congrArg State.PC hregs :)⟩
    rw [stepInstr_eq, hfetch, ht]
    rfl

end Sys2Proof.Machine
end

section
/-! ADC and SBC: the result of the arithmetic in the registers, and what that result is, binary and decimal (spec 42_adc_sbc.md
R180 to R191). -/

namespace Sys2Proof.Machine

/-! ## The meaning, up to the arithmetic -/

/-- ADC completes with the arithmetic's result, everything else but PC unchanged. -/
theorem exec_adc {s : State} {o : DataOperand} (hw : (Instr.adc o).wellFormed s.cfg = true) :
    ∃ t, exec (.adc o) s = .next t ∧
      t.arch = { s with PC := s.after (.adc o) }.arch.setAlu (adcResult s.cfg s.D s.A (s.operand o) s.C) :=
  ⟨_, exec_next hw rfl, s.arch_arith o _⟩

/-- SBC completes with the arithmetic's result, everything else but PC unchanged. -/
theorem exec_sbc {s : State} {o : DataOperand} (hw : (Instr.sbc o).wellFormed s.cfg = true) :
    ∃ t, exec (.sbc o) s = .next t ∧
      t.arch = { s with PC := s.after (.sbc o) }.arch.setAlu (sbcResult s.cfg s.D s.A (s.operand o) s.C) :=
  ⟨_, exec_next hw rfl, s.arch_arith o _⟩

/-- The five fields of a result, read back from the state it was written to. -/
theorem alu_of_arch {t u : State} {r : AluResult} (h : t.arch = u.arch.setAlu r) :
    t.A = r.A ∧ t.N = r.N ∧ t.V = r.V ∧ t.Z = r.Z ∧ t.C = r.C := by
  refine ⟨?_, ?_, ?_, ?_, ?_⟩
  · rw [← State.arch_A, h, State.setAlu_A]
  · rw [← State.arch_N, h, State.setAlu_N]
  · rw [← State.arch_V, h, State.setAlu_V]
  · rw [← State.arch_Z, h, State.setAlu_Z]
  · rw [← State.arch_C, h, State.setAlu_C]

/-! ## Binary subtraction -/

theorem complement_toNat (m : Byte) : (m ^^^ 0xFF).toNat = 255 - m.toNat := by
  rw [show m ^^^ 0xFF = ~~~m from BitVec.xor_allOnes (x := m), BitVec.toNat_not]

theorem complement_toInt (m : Byte) : (m ^^^ 0xFF).toInt = -1 - m.toInt := by
  have hm := m.isLt
  rw [toInt_eq_ite, toInt_eq_ite, complement_toNat]
  split <;> split <;> omega

/-- The carry of a binary subtraction is set exactly when nothing is borrowed. -/
theorem sbcBinary_C (a m : Byte) (c : Bool) : (sbcBinary a m c).C = decide (m.toNat + 1 ≤ a.toNat + flagNat c) := by
  have hm := m.isLt
  rw [sbcBinary, adcBinary_C, binSum, complement_toNat, decide_eq_decide]
  omega

/-- The result and the borrow are the difference. -/
theorem sbcBinary_exact (a m : Byte) (c : Bool) :
    ((sbcBinary a m c).A.toNat : Int) - 256 * (1 - flagNat (sbcBinary a m c).C) = (a.toNat : Int) - m.toNat - (1 - flagNat c) := by
  have h := adcBinary_exact a (m ^^^ 0xFF) c
  have hm := m.isLt
  rw [complement_toNat, ← sbcBinary] at h
  omega

/-- V of a binary subtraction is signed overflow of the difference. -/
theorem sbcBinary_V_iff_signed (a m : Byte) (c : Bool) : (sbcBinary a m c).V = true ↔
    ¬ (-128 ≤ a.toInt - m.toInt - (1 - flagNat c) ∧ a.toInt - m.toInt - (1 - flagNat c) ≤ 127) := by
  have hsum : a.toInt + (m ^^^ 0xFF).toInt + flagNat c = a.toInt - m.toInt - (1 - flagNat c) := by
    rw [complement_toInt]
    omega
  rw [sbcBinary, adcBinary_V_iff_signed, hsum]

/-- Settles O15: with D clear ADC is `AddBin` and SBC is `AddBin` of the complement. -/
theorem binaryAddAndSubtractAreExact : Obligations.BinaryAddAndSubtractAreExact := by
  intro s o hD m
  refine ⟨fun hw => ?adc, fun hw => ?sbc⟩
  case adc =>
    obtain ⟨t, ht, harch⟩ := exec_adc hw
    have hres : adcResult s.cfg s.D s.A (s.operand o) s.C = adcBinary s.A m s.C := by rw [hD]; rfl
    rw [hres] at harch
    obtain ⟨hA, -, hV, -, hC⟩ := alu_of_arch harch
    refine ⟨t, ht, ?_, ?_, ?_⟩
    · rw [hA, hC, adcBinary_exact]
    · rw [hV, adcBinary_V_iff_signed]
    · rw [harch, hA, hC, hV]
      rfl
  case sbc =>
    obtain ⟨t, ht, harch⟩ := exec_sbc hw
    have hres : sbcResult s.cfg s.D s.A (s.operand o) s.C = sbcBinary s.A m s.C := by rw [hD]; rfl
    rw [hres] at harch
    obtain ⟨hA, -, hV, -, hC⟩ := alu_of_arch harch
    refine ⟨t, ht, ?_, ?_, ?_⟩
    · rw [hA, hC, sbcBinary_exact]
    · rw [hV, sbcBinary_V_iff_signed]
    · rw [harch, hA, hC, hV]
      rfl

/-! ## Decimal arithmetic on decimal digits -/

/-- A and C of a decimal addition, on both variants and for both values of P8: the corrected sum. -/
theorem adcResult_decimal (cfg : Config) (a m : Byte) (c : Bool) :
    (adcResult cfg true a m c).A = BitVec.ofNat 8 (decSum a m c) ∧ (adcResult cfg true a m c).C = decide (0x100 ≤ decSum a m c) := by
  rw [adcResult, if_pos rfl]
  cases cfg.variant <;> exact ⟨rfl, rfl⟩

/-- C of a decimal subtraction is that of the binary one, on both variants. -/
theorem sbcResult_decimal_C (cfg : Config) (a m : Byte) (c : Bool) : (sbcResult cfg true a m c).C = (sbcBinary a m c).C := by
  rw [sbcResult, if_pos rfl]
  cases cfg.variant <;> rfl

/-- The byte that holds the two decimal digits of a number. -/
theorem bcd_of_toNat {v : Byte} {n : Nat} (hn : n < 100) (h : v.toNat = 16 * (n / 10) + n % 10) : isBcd v ∧ bcdValue v = n := by
  rw [isBcd, bcdValue, h]
  omega

/-- A sum of two decimal digits and a carry is corrected by six from ten on (R184 lines 2 and 3). -/
theorem decLowSum_digits {a m : Byte} {c : Bool} {d : Nat} (hd : loDigit a + loDigit m + flagNat c = d) (h : d < 20) :
    decLowSum a m c = d ∧ d < 10 ∨ decLowSum a m c = d + 6 ∧ 10 ≤ d := by
  rw [decLowSum, hd]
  split <;> omega

/-- On decimal digits the intermediate sum holds the tens and the ones of the decimal sum, the tens up to 19. -/
theorem decMidSum_bcd {a m : Byte} (ha : isBcd a) (hm : isBcd m) (c : Bool) {n : Nat} (hn : bcdValue a + bcdValue m + flagNat c = n) :
    decMidSum a m c = 16 * (n / 10) + n % 10 := by
  have hc := flagNat_le_one c
  obtain ⟨hal, hah⟩ := ha
  obtain ⟨hml, hmh⟩ := hm
  have hmid : decMidSum a m c = a.toNat / 16 * 16 + m.toNat / 16 * 16 + decLowSum a m c := rfl
  simp only [bcdValue] at hn
  obtain ⟨hlow, hlt⟩ | ⟨hlow, hle⟩ := decLowSum_digits (a := a) (m := m) (c := c) rfl (by simp only [loDigit]; omega)
  · simp only [loDigit] at hlow hlt
    omega
  · simp only [loDigit] at hlow hle
    omega

/-- On decimal digits the corrected sum of R184 is the decimal sum: two digits, and bit 8 the hundred (R189). -/
theorem decSum_bcd {a m : Byte} (ha : isBcd a) (hm : isBcd m) (c : Bool) {n : Nat} (hn : bcdValue a + bcdValue m + flagNat c = n) :
    decSum a m c = 256 * (n / 100) + 16 * (n / 10 % 10) + n % 10 := by
  have hc := flagNat_le_one c
  obtain ⟨hal, hah⟩ := ha
  obtain ⟨hml, hmh⟩ := hm
  have htens : n / 10 < 20 := by simp only [bcdValue] at hn; omega
  rw [decSum, decMidSum_bcd ⟨hal, hah⟩ ⟨hml, hmh⟩ c hn]
  split <;> omega

/-- On decimal digits a subtraction borrows exactly when the decimal difference is negative. -/
theorem sbcBinary_C_bcd {a m : Byte} (ha : isBcd a) (hm : isBcd m) (c : Bool) {d : Int}
    (hd : (bcdValue a : Int) - bcdValue m - (1 - flagNat c) = d) : (sbcBinary a m c).C = decide (0 ≤ d) := by
  have hc := flagNat_le_one c
  obtain ⟨hal, hah⟩ := ha
  obtain ⟨hml, hmh⟩ := hm
  simp only [bcdValue] at hd
  rw [sbcBinary_C, decide_eq_decide]
  omega

/-- The number that a decimal subtraction leaves before it is cut to a byte, for the decimal difference `d`: its tens and ones, and
below zero the correction by 0x60. -/
def bcdDifference (d : Int) : Int := 16 * (d / 10) + d % 10 - if d < 0 then 0x60 else 0

/-- Its low byte holds the two digits of the difference modulo 100. -/
theorem bcdDifference_emod {d : Int} (h : -100 ≤ d) (h' : d < 100) :
    bcdDifference d % 256 = 16 * (d % 100 / 10) + d % 100 % 10 := by
  have htens : -10 ≤ d / 10 ∧ d / 10 < 10 := by omega
  rw [bcdDifference]
  split
  · have hhundred : d % 100 = d + 100 := by omega
    rw [hhundred]
    omega
  · have hhundred : d % 100 = d := by omega
    rw [hhundred]
    omega

/-- The digits of a decimal difference, with a borrow from the tens exactly when the low digit difference is negative. -/
theorem digits_of_decLowDiff {a m : Byte} (ha : isBcd a) (hm : isBcd m) {c : Bool} {d : Int}
    (hd : (bcdValue a : Int) - bcdValue m - (1 - flagNat c) = d) :
    0 ≤ decLowDiff a m c ∧ d / 10 = a.toNat / 16 - m.toNat / 16 ∧ d % 10 = decLowDiff a m c ∨
      decLowDiff a m c < 0 ∧ d / 10 = a.toNat / 16 - m.toNat / 16 - 1 ∧ d % 10 = decLowDiff a m c + 10 := by
  have hc := flagNat_le_one c
  obtain ⟨hal, hah⟩ := ha
  obtain ⟨hml, hmh⟩ := hm
  have hlow : decLowDiff a m c = a.toNat % 16 - m.toNat % 16 + flagNat c - 1 := rfl
  simp only [bcdValue] at hd
  omega

/-- R185 on decimal digits. -/
theorem decDiffNmos_bcd {a m : Byte} (ha : isBcd a) (hm : isBcd m) (c : Bool) {d : Int}
    (hd : (bcdValue a : Int) - bcdValue m - (1 - flagNat c) = d) : decDiffNmos a m c = bcdDifference d := by
  have hhi : (hiDigit a : Int) - hiDigit m = 16 * (a.toNat / 16 - m.toNat / 16) := by simp only [hiDigit]; omega
  rw [decDiffNmos, bcdDifference, hhi]
  obtain ⟨hlow, htens, hones⟩ | ⟨hlow, htens, hones⟩ := digits_of_decLowDiff ha hm hd
  · rw [if_neg (by omega : ¬ decLowDiff a m c < 0)]
    split <;> split <;> omega
  · have hmod : (decLowDiff a m c - 6) % 16 = decLowDiff a m c + 10 := by omega
    rw [if_pos hlow, hmod]
    split <;> split <;> omega

/-- R187 on decimal digits. -/
theorem decDiffCmos_bcd {a m : Byte} (ha : isBcd a) (hm : isBcd m) (c : Bool) {d : Int}
    (hd : (bcdValue a : Int) - bcdValue m - (1 - flagNat c) = d) : decDiffCmos a m c = bcdDifference d := by
  have hdiff : (a.toNat : Int) - m.toNat + flagNat c - 1 = 16 * (a.toNat / 16 - m.toNat / 16) + decLowDiff a m c := by
    simp only [decLowDiff, loDigit]
    omega
  rw [decDiffCmos, bcdDifference, hdiff]
  obtain ⟨hlow, htens, hones⟩ | ⟨hlow, htens, hones⟩ := digits_of_decLowDiff ha hm hd
  · rw [if_neg (by omega : ¬ decLowDiff a m c < 0)]
    split <;> split <;> omega
  · rw [if_pos hlow]
    split <;> split <;> omega

/-- The accumulator of a decimal addition of decimal digits: the sum modulo 100. -/
theorem adcResult_bcd {cfg : Config} {a m : Byte} (ha : isBcd a) (hm : isBcd m) (c : Bool) :
    isBcd (adcResult cfg true a m c).A ∧
      bcdValue (adcResult cfg true a m c).A + 100 * flagNat (adcResult cfg true a m c).C = bcdValue a + bcdValue m + flagNat c := by
  obtain ⟨hA, hC⟩ := adcResult_decimal cfg a m c
  have hn : bcdValue a + bcdValue m + flagNat c < 200 := by
    have hc := flagNat_le_one c
    obtain ⟨hal, hah⟩ := ha
    obtain ⟨hml, hmh⟩ := hm
    simp only [bcdValue]
    omega
  generalize hsum : bcdValue a + bcdValue m + flagNat c = n at hn
  have hdec := decSum_bcd ha hm c hsum
  have hdigits : n / 10 % 10 = n % 100 / 10 ∧ n % 10 = n % 100 % 10 := by omega
  rw [hdigits.1, hdigits.2] at hdec
  obtain ⟨hbcd, hval⟩ := bcd_of_toNat (v := BitVec.ofNat 8 (decSum a m c)) (n := n % 100) (by omega) (by
    rw [BitVec.toNat_ofNat]
    omega)
  rw [hA, hC]
  refine ⟨hbcd, ?_⟩
  rw [hval, flagNat]
  simp only [decide_eq_true_eq]
  split <;> omega

/-- The accumulator of a decimal subtraction of decimal digits: the difference modulo 100. -/
theorem sbcResult_bcd {cfg : Config} {a m : Byte} (ha : isBcd a) (hm : isBcd m) (c : Bool) :
    isBcd (sbcResult cfg true a m c).A ∧ (bcdValue (sbcResult cfg true a m c).A : Int) -
      100 * (1 - flagNat (sbcResult cfg true a m c).C) = (bcdValue a : Int) - bcdValue m - (1 - flagNat c) := by
  have hd : -100 ≤ (bcdValue a : Int) - bcdValue m - (1 - flagNat c) ∧ (bcdValue a : Int) - bcdValue m - (1 - flagNat c) < 100 := by
    have hc := flagNat_le_one c
    obtain ⟨hal, hah⟩ := ha
    obtain ⟨hml, hmh⟩ := hm
    simp only [bcdValue]
    omega
  generalize hdiff : (bcdValue a : Int) - bcdValue m - (1 - flagNat c) = d at hd
  have hA : (sbcResult cfg true a m c).A = BitVec.ofInt 8 (bcdDifference d) := by
    rw [sbcResult, if_pos rfl]
    cases cfg.variant
    · exact congrArg (BitVec.ofInt 8) (decDiffNmos_bcd ha hm c hdiff)
    · exact congrArg (BitVec.ofInt 8) (decDiffCmos_bcd ha hm c hdiff)
  obtain ⟨hbcd, hval⟩ := bcd_of_toNat (v := BitVec.ofInt 8 (bcdDifference d)) (n := (d % 100).toNat) (by omega) (by
    have hlow := bcdDifference_emod hd.1 hd.2
    rw [BitVec.toNat_ofInt]
    omega)
  rw [hA, sbcResult_decimal_C, sbcBinary_C_bcd ha hm c hdiff]
  refine ⟨hbcd, ?_⟩
  rw [hval, flagNat]
  simp only [decide_eq_true_eq]
  split <;> omega

/-- Settles O16: on decimal digits the arithmetic of both variants is decimal. -/
theorem decimalAddAndSubtractOnDigits : Obligations.DecimalAddAndSubtractOnDigits := by
  intro s o hD ha hm m
  refine ⟨fun hw => ?adc, fun hw => ?sbc⟩
  case adc =>
    obtain ⟨t, ht, harch⟩ := exec_adc hw
    obtain ⟨hA, -, -, -, hC⟩ := alu_of_arch harch
    rw [hD] at hA hC
    exact ⟨t, ht, hA ▸ hC ▸ adcResult_bcd ha hm s.C⟩
  case sbc =>
    obtain ⟨t, ht, harch⟩ := exec_sbc hw
    obtain ⟨hA, -, -, -, hC⟩ := alu_of_arch harch
    rw [hD] at hA hC
    exact ⟨t, ht, hA ▸ hC ▸ sbcResult_bcd ha hm s.C⟩

/-! ## The flags of decimal arithmetic on any operands -/

/-- V of a decimal addition is that of the intermediate sum, on both variants. -/
theorem adcResult_decimal_V (cfg : Config) (a m : Byte) (c : Bool) :
    (adcResult cfg true a m c).V = addOverflow a m (BitVec.ofNat 8 (decMidSum a m c)) := by
  rw [adcResult, if_pos rfl]
  cases cfg.variant <;> rfl

theorem adcResult_nmos {cfg : Config} (hv : cfg.variant = .nmos6502) (a m : Byte) (c : Bool) :
    adcResult cfg true a m c = adcDecimalNmos cfg.nmosDecAdcN a m c := by rw [adcResult, if_pos rfl, hv]

theorem adcResult_cmos {cfg : Config} (hv : cfg.variant = .cmos65C02) (a m : Byte) (c : Bool) :
    adcResult cfg true a m c = adcDecimalCmos a m c := by rw [adcResult, if_pos rfl, hv]

theorem sbcResult_nmos {cfg : Config} (hv : cfg.variant = .nmos6502) (a m : Byte) (c : Bool) :
    sbcResult cfg true a m c = sbcDecimalNmos a m c := by rw [sbcResult, if_pos rfl, hv]

theorem sbcResult_cmos {cfg : Config} (hv : cfg.variant = .cmos65C02) (a m : Byte) (c : Bool) :
    sbcResult cfg true a m c = sbcDecimalCmos a m c := by rw [sbcResult, if_pos rfl, hv]

/-- V of a decimal subtraction is that of the binary one, on both variants. -/
theorem sbcResult_decimal_V (cfg : Config) (a m : Byte) (c : Bool) : (sbcResult cfg true a m c).V = (sbcBinary a m c).V := by
  rw [sbcResult, if_pos rfl]
  cases cfg.variant <;> rfl

/-- Settles O17: each flag is read off the variant's rule. -/
theorem decimalFlagSourcesPerVariant : Obligations.DecimalFlagSourcesPerVariant := by
  intro s o hD m bin mid dif
  refine ⟨fun hw => ?adc, fun hw => ?sbc⟩
  case adc =>
    obtain ⟨t, ht, harch⟩ := exec_adc hw
    obtain ⟨hA, hN, hV, hZ, hC⟩ := alu_of_arch harch
    obtain ⟨hsum, hcarry⟩ := adcResult_decimal s.cfg s.A m s.C
    refine ⟨t, ht, ?frame, ?sum, ?carry, ?overflow, fun hv => ?nmos, fun hv => ?cmos⟩
    case frame =>
      rw [hA, hN, hV, hZ, hC, harch]
      rfl
    all_goals rw [hD] at hA hN hV hZ hC
    case sum => rw [hA, hsum, BitVec.toNat_ofNat]
    case carry => rw [hC, hcarry, decide_eq_true_iff]
    case overflow => rw [hV, adcResult_decimal_V, addOverflow_iff]
    case nmos =>
      rw [adcResult_nmos hv] at hZ hN
      have hbin : (BitVec.ofNat 8 (binSum s.A m s.C)).toNat = bin := BitVec.toNat_ofNat _ 8
      refine ⟨?_, fun hp => ?_, fun hp => ?_⟩
      · rw [hZ, ← hbin, Bool.eq_iff_iff, decide_eq_true_iff]
        exact beq_iff_eq.trans BitVec.toNat_eq
      · rw [hN, hp]
        rfl
      · rw [hN, hp, ← hbin]
        exact bitOf_seven _
    case cmos =>
      rw [adcResult_cmos hv] at hA hZ hN
      rw [hA, hZ, hN]
      exact ⟨rfl, rfl⟩
  case sbc =>
    obtain ⟨t, ht, harch⟩ := exec_sbc hw
    obtain ⟨hA, hN, hV, hZ, hC⟩ := alu_of_arch harch
    refine ⟨t, ht, ?frame, fun hv => ?nmos, fun hv => ?cmos⟩
    case frame =>
      rw [hA, hN, hZ, ← sbcResult_decimal_C s.cfg, ← sbcResult_decimal_V s.cfg, ← hD, harch]
      rfl
    all_goals rw [hD] at hA hN hZ
    case nmos =>
      rw [sbcResult_nmos hv] at hA hN hZ
      exact ⟨hA, hZ, hN⟩
    case cmos =>
      rw [sbcResult_cmos hv] at hA hN hZ
      rw [hZ, hN, hA]
      exact ⟨rfl, rfl, rfl⟩

end Sys2Proof.Machine
end

section
/-! The bookkeeping of every instruction: it only appends to the trace, one cycle for each access, and leaves the counters of the
host alone (spec 60_exceptions.md R431, 70_reset_and_hazards.md R470). -/

namespace Sys2Proof.Machine

/-- Every effect is made of counted accesses and updates of registers and flags. -/
theorem counted_effect (i : Instr) (s : State) : Counted s (effect i s) := by
  cases i
  case lda o | and o | ora o | eor o => exact ((counted_load s o).setA _).setNZ _
  case ldx o => exact ((counted_load s o).setX _).setNZ _
  case ldy o => exact ((counted_load s o).setY _).setNZ _
  case cmp o | cpx o | cpy o => exact (counted_load s o).compare _ _
  case bit o => exact (counted_load s o).bitFlags _ _
  case adc o | sbc o => exact ((counted_load s o).setAlu _).trans (counted_decimalExtra _ _)
  case sta o | stx o | sty o | stz o => exact counted_store s o _
  case asl o | lsr o | rol o | ror o => exact ((counted_modify s o _).setC _).setNZ _
  case inc o | dec o => exact (counted_modify s o _).setNZ _
  case tsb o | trb o => exact (counted_modify s o _).setZAnd _
  case rmb0 zp | rmb1 zp | rmb2 zp | rmb3 zp | rmb4 zp | rmb5 zp | rmb6 zp | rmb7 zp => exact counted_modify s (.zp zp) _
  case smb0 zp | smb1 zp | smb2 zp | smb3 zp | smb4 zp | smb5 zp | smb6 zp | smb7 zp => exact counted_modify s (.zp zp) _
  case bpl off | bmi off | bvc off | bvs off | bcc off | bcs off | bne off | beq off | bra off =>
    exact (counted_fetch2 s).trans (counted_branch _ _ off)
  case bbr0 zp off | bbr1 zp off | bbr2 zp off | bbr3 zp off | bbr4 zp off | bbr5 zp off | bbr6 zp off | bbr7 zp off =>
    exact counted_bitBranch s _ _ zp off
  case bbs0 zp off | bbs1 zp off | bbs2 zp off | bbs3 zp off | bbs4 zp off | bbs5 zp off | bbs6 zp off | bbs7 zp off =>
    exact counted_bitBranch s _ _ zp off
  case jmp o => exact (counted_jumpAccess s o).setPC _
  case pha | php | phx | phy => exact (counted_implied s).trans (counted_push _ _)
  case pla => exact ((((counted_implied s).trans (counted_stackTop _)).trans (counted_pull _)).setA _).setNZ _
  case plx => exact ((((counted_implied s).trans (counted_stackTop _)).trans (counted_pull _)).setX _).setNZ _
  case ply => exact ((((counted_implied s).trans (counted_stackTop _)).trans (counted_pull _)).setY _).setNZ _
  case plp => exact (((counted_implied s).trans (counted_stackTop _)).trans (counted_pull _)).unpack _
  case jsr w => exact counted_callSubroutine s _
  case rts => exact counted_returnSubroutine s
  case brk => exact (counted_fetch2 s).trans (counted_interruptEntry _ _ _ _)
  case rti => exact ((counted_implied s).trans (counted_stackTop _)).trans (counted_interruptReturn _)
  case txa | tya => exact ((counted_implied s).setA _).setNZ _
  case tax | tsx | inx | dex => exact ((counted_implied s).setX _).setNZ _
  case tay | iny | dey => exact ((counted_implied s).setY _).setNZ _
  case txs => exact (counted_implied s).setS _
  case clc | sec => exact (counted_implied s).setC _
  case cli | sei => exact (counted_implied s).setI _
  case cld | sed => exact (counted_implied s).setD _
  case clv => exact (counted_implied s).setV _
  case nop => exact counted_implied s
  case wai | stp | illegal => exact Counted.refl s

/-- An instruction that completes has only made counted accesses, as far as the bookkeeping shows. -/
theorem counted_of_exec {i : Instr} {s t : State} (h : exec i s = .next t) : Counted s t := by
  obtain ⟨-, -, rfl⟩ := exec_next_inv h
  exact counted_effect i s

/-- What `Step()` answers is what the instruction at PC answers, counted once. -/
theorem stepInstr_next_inv {s u : State} (h : stepInstr s = .next u) :
    ∃ t, exec (fetchInstr s) s.beginTransaction = .next t ∧ u = t.retire := by
  rw [stepInstr_eq] at h
  cases he : exec (fetchInstr s) s.beginTransaction with
  | next t =>
    rw [he] at h
    cases h
    exact ⟨t, rfl, rfl⟩
  | fault f => rw [he] at h; cases h
  | refused r => rw [he] at h; cases h

/-- Settles O49: every effect is counted, and a step begins with an empty trace. -/
theorem cyclesCountTheAccesses : Obligations.CyclesCountTheAccesses := by
  refine ⟨fun i s t h => ?instr, fun s u hh h => ?step⟩
  case instr =>
    obtain ⟨⟨l, htrace, hcycles⟩, hinstrs, -⟩ := counted_of_exec h
    exact ⟨l, htrace, hcycles, hinstrs⟩
  case step =>
    rw [step_nil hh] at h
    obtain ⟨t, ht, rfl⟩ := stepInstr_next_inv h
    obtain ⟨⟨l, htrace, hcycles⟩, hinstrs, -⟩ := counted_of_exec ht
    rw [State.beginTransaction_trace, List.nil_append] at htrace
    exact ⟨by rw [State.retire_cycles, hcycles, State.retire_trace, htrace]; rfl, congrArg (· + 1) hinstrs⟩

end Sys2Proof.Machine
end

section
/-! Which registers, flags and bytes an instruction may write: the registers and the memory of each shared operation are pushed
down to those of the state it starts from (spec 10_state.md R21 to R25, R36 to R41). -/

namespace Sys2Proof.Machine

/-! ## The registers of the shared operations -/

theorem State.regs_load (s : State) (o : DataOperand) :
    (s.load o).regs = s.regs.setPC (s.PC + BitVec.ofNat 16 o.mode.length) := regs_of_arch (s.arch_load o)

/-- A store in any form leaves the registers but PC. -/
theorem State.regs_store_of_any (s : State) (o : DataOperand) (v : Byte) :
    (s.store o v).regs = s.regs.setPC (s.store o v).PC := by
  by_cases h : ∃ b, o = .imm b
  · obtain ⟨b, rfl⟩ := h
    rfl
  · have hregs := s.regs_store o v fun b hb => h ⟨b, hb⟩
    rw [← State.regs_PC, hregs, State.setPC_PC]

/-- A read-modify-write leaves the registers but PC, and but A in its accumulator form. -/
theorem State.regs_modify_of_any (s : State) (o : RmwOperand) (v : Byte) :
    (s.modify o v).regs = (s.regs.setA (if o = .acc then v else s.A)).setPC (s.PC + BitVec.ofNat 16 o.mode.length) := by
  cases o
  case acc => exact regs_of_arch (s.arch_modify_acc v)
  all_goals exact s.regs_modify rfl v

theorem State.regs_decimalExtra (s : State) (a : Word) : (s.decimalExtra a).regs = s.regs :=
  (congrArg State.regs (s.arch_decimalExtra a) :)

theorem State.regs_branch (s : State) (cond : Bool) (off : Byte) :
    (s.branch cond off).regs = s.regs.setPC (if cond then s.PC + sext16 off else s.PC) := regs_of_arch (s.arch_branch cond off)

theorem State.regs_bitBranch (s : State) (n : Nat) (want : Bool) (zp off : Byte) :
    (s.bitBranch n want zp off).regs =
      s.regs.setPC (if bitOf (s.peek (zeroPage zp)) n == want then s.PC + 3 + sext16 off else s.PC + 3) :=
  regs_of_arch (s.arch_bitBranch n want zp off)

theorem State.regs_jumpAccess (s : State) (o : JumpOperand) : (s.jumpAccess o).regs = s.regs.setPC (s.PC + 3) :=
  regs_of_arch (s.arch_jumpAccess o)

theorem State.regs_returnSubroutine (s : State) :
    s.returnSubroutine.regs =
      (s.regs.setS (s.S + 2)).setPC (word (s.peek (stackAddr (s.S + 2))) (s.peek (stackAddr (s.S + 1))) + 1) :=
  regs_of_arch s.arch_returnSubroutine

/-- BRK's entry. -/
theorem State.regs_interruptEntry_brk (s : State) :
    (s.interruptEntry vecIRQ true true).regs = ((s.regs.setS (s.S - 3)).enterFlags).setPC (s.vectorWord vecIRQ) :=
  s.regs_interruptEntry _ _ _ (by decide) (by decide)

/-- The flags that an effect leaves, for the instructions that do not write them. -/
theorem effect_flags (i : Instr) (s : State) :
    (writesC i = false → (effect i s).regs.C = s.C) ∧ (writesZ i = false → (effect i s).regs.Z = s.Z) ∧
    (writesI i = false → (effect i s).regs.I = s.I) ∧ (writesD s.cfg i = false → (effect i s).regs.D = s.D) ∧
    (writesV i = false → (effect i s).regs.V = s.V) ∧ (writesN i = false → (effect i s).regs.N = s.N) := by
  cases i
  case bit o =>
    cases o <;> simp [effect, State.bitFlags, State.regs_load, writesC, writesZ, writesI, writesD, writesV, writesN]
  case lda | ldx | ldy | and | ora | eor | cmp | cpx | cpy =>
    simp [effect, State.regs_load, writesC, writesZ, writesI, writesD, writesV, writesN]
  case adc | sbc =>
    simp [effect, State.regs_decimalExtra, State.regs_load, writesC, writesZ, writesI, writesD, writesV, writesN]
  case sta | stx | sty | stz => simp [effect, State.regs_store_of_any]
  case asl | lsr | rol | ror | inc | dec | tsb | trb =>
    simp [effect, State.regs_modify_of_any, writesC, writesZ, writesI, writesD, writesV, writesN]
  case rmb0 | rmb1 | rmb2 | rmb3 | rmb4 | rmb5 | rmb6 | rmb7 => simp [effect, State.regs_resetBit]
  case smb0 | smb1 | smb2 | smb3 | smb4 | smb5 | smb6 | smb7 => simp [effect, State.regs_setBit]
  case bpl | bmi | bvc | bvs | bcc | bcs | bne | beq | bra => simp [effect, State.regs_branch]
  case bbr0 | bbr1 | bbr2 | bbr3 | bbr4 | bbr5 | bbr6 | bbr7 => simp [effect, State.regs_bitBranch]
  case bbs0 | bbs1 | bbs2 | bbs3 | bbs4 | bbs5 | bbs6 | bbs7 => simp [effect, State.regs_bitBranch]
  case jmp => simp [effect, State.regs_jumpAccess]
  case pha | php | phx | phy => simp [effect]
  case pla | plx | ply | plp => simp [effect, writesC, writesZ, writesI, writesD, writesV, writesN]
  case jsr => simp [effect, State.regs_callSubroutine]
  case rts => simp [effect, State.regs_returnSubroutine]
  case rti => simp [writesC, writesZ, writesI, writesD, writesV, writesN]
  case brk =>
    by_cases hv : s.cfg.variant = .cmos65C02 <;>
      simp [effect, State.regs_interruptEntry_brk, State.enterFlags_D, hv, writesI, writesD]
  case wai | stp | illegal => exact ⟨fun _ => rfl, fun _ => rfl, fun _ => rfl, fun _ => rfl, fun _ => rfl, fun _ => rfl⟩
  all_goals simp [effect, writesC, writesZ, writesI, writesD, writesV, writesN]

/-- Settles O53: the flags that an effect leaves. -/
theorem flagsChangeOnlyWhereListed : Obligations.FlagsChangeOnlyWhereListed := by
  intro i s t h
  obtain ⟨-, -, rfl⟩ := exec_next_inv h
  exact effect_flags i s

/-- A read-modify-write in memory leaves A. -/
theorem State.regs_modify_A {s : State} {o : RmwOperand} (h : o ≠ .acc) (v : Byte) : (s.modify o v).regs.A = s.A := by
  rw [State.regs_modify_of_any, if_neg h, State.setPC_A, State.setA_A]

/-- An effect leaves A, for the instructions that do not write it. -/
theorem effect_A {i : Instr} {s : State} (hw : i.wellFormed s.cfg = true) (h : writesA i = false) :
    (effect i s).regs.A = s.A := by
  cases i
  case lda | adc | sbc | and | ora | eor | pla | txa | tya => cases h
  case bit o => cases o <;> simp [effect, State.bitFlags, State.regs_load]
  case ldx | ldy | cmp | cpx | cpy => simp [effect, State.regs_load]
  case sta | stx | sty | stz => simp [effect, State.regs_store_of_any]
  case asl o | lsr o | rol o | ror o | inc o | dec o =>
    have hacc : o ≠ .acc := by rintro rfl; cases h
    exact State.regs_modify_A hacc _
  case tsb o =>
    obtain ⟨d, hd⟩ := rmwData_of_wellFormed (f := .tsb) rfl rfl hw
    simp [effect, State.regs_modify s hd]
  case trb o =>
    obtain ⟨d, hd⟩ := rmwData_of_wellFormed (f := .trb) rfl rfl hw
    simp [effect, State.regs_modify s hd]
  case rmb0 | rmb1 | rmb2 | rmb3 | rmb4 | rmb5 | rmb6 | rmb7 => simp [effect, State.regs_resetBit]
  case smb0 | smb1 | smb2 | smb3 | smb4 | smb5 | smb6 | smb7 => simp [effect, State.regs_setBit]
  case bpl | bmi | bvc | bvs | bcc | bcs | bne | beq | bra => simp [effect, State.regs_branch]
  case bbr0 | bbr1 | bbr2 | bbr3 | bbr4 | bbr5 | bbr6 | bbr7 => simp [effect, State.regs_bitBranch]
  case bbs0 | bbs1 | bbs2 | bbs3 | bbs4 | bbs5 | bbs6 | bbs7 => simp [effect, State.regs_bitBranch]
  case jmp => simp [effect, State.regs_jumpAccess]
  case jsr => simp [effect, State.regs_callSubroutine]
  case rts => simp [effect, State.regs_returnSubroutine]
  case rti => simp [effect, State.regs_interruptReturn]
  case brk => simp [effect, State.regs_interruptEntry_brk]
  case wai | stp | illegal => rfl
  all_goals simp [effect]

/-- An effect leaves S, for the instructions that do not write it. -/
theorem effect_S {i : Instr} (s : State) (h : writesS i = false) : (effect i s).regs.S = s.S := by
  cases i
  case pha | php | phx | phy | pla | plp | plx | ply | jsr | rts | brk | rti | txs => cases h
  case bit o => cases o <;> simp [effect, State.bitFlags, State.regs_load]
  case lda | ldx | ldy | and | ora | eor | cmp | cpx | cpy => simp [effect, State.regs_load]
  case adc | sbc => simp [effect, State.regs_decimalExtra, State.regs_load]
  case sta | stx | sty | stz => simp [effect, State.regs_store_of_any]
  case asl | lsr | rol | ror | inc | dec | tsb | trb => simp [effect, State.regs_modify_of_any]
  case rmb0 | rmb1 | rmb2 | rmb3 | rmb4 | rmb5 | rmb6 | rmb7 => simp [effect, State.regs_resetBit]
  case smb0 | smb1 | smb2 | smb3 | smb4 | smb5 | smb6 | smb7 => simp [effect, State.regs_setBit]
  case bpl | bmi | bvc | bvs | bcc | bcs | bne | beq | bra => simp [effect, State.regs_branch]
  case bbr0 | bbr1 | bbr2 | bbr3 | bbr4 | bbr5 | bbr6 | bbr7 => simp [effect, State.regs_bitBranch]
  case bbs0 | bbs1 | bbs2 | bbs3 | bbs4 | bbs5 | bbs6 | bbs7 => simp [effect, State.regs_bitBranch]
  case jmp => simp [effect, State.regs_jumpAccess]
  case wai | stp | illegal => rfl
  all_goals simp [effect]

/-- An effect leaves X and Y, for the instructions that do not write them. -/
theorem effect_XY (i : Instr) (s : State) :
    (writesX i = false → (effect i s).regs.X = s.X) ∧ (writesY i = false → (effect i s).regs.Y = s.Y) := by
  cases i
  case bit o => cases o <;> simp [effect, State.bitFlags, State.regs_load]
  case lda | ldx | ldy | and | ora | eor | cmp | cpx | cpy => simp [effect, State.regs_load, writesX, writesY]
  case adc | sbc => simp [effect, State.regs_decimalExtra, State.regs_load]
  case sta | stx | sty | stz => simp [effect, State.regs_store_of_any]
  case asl | lsr | rol | ror | inc | dec | tsb | trb => simp [effect, State.regs_modify_of_any]
  case rmb0 | rmb1 | rmb2 | rmb3 | rmb4 | rmb5 | rmb6 | rmb7 => simp [effect, State.regs_resetBit]
  case smb0 | smb1 | smb2 | smb3 | smb4 | smb5 | smb6 | smb7 => simp [effect, State.regs_setBit]
  case bpl | bmi | bvc | bvs | bcc | bcs | bne | beq | bra => simp [effect, State.regs_branch]
  case bbr0 | bbr1 | bbr2 | bbr3 | bbr4 | bbr5 | bbr6 | bbr7 => simp [effect, State.regs_bitBranch]
  case bbs0 | bbs1 | bbs2 | bbs3 | bbs4 | bbs5 | bbs6 | bbs7 => simp [effect, State.regs_bitBranch]
  case jmp => simp [effect, State.regs_jumpAccess]
  case jsr => simp [effect, State.regs_callSubroutine]
  case rts => simp [effect, State.regs_returnSubroutine]
  case rti => simp [effect, State.regs_interruptReturn]
  case brk => simp [effect, State.regs_interruptEntry_brk]
  case wai | stp | illegal => exact ⟨fun _ => rfl, fun _ => rfl⟩
  all_goals simp [effect, writesX, writesY]

/-- An effect leaves memory, for the instructions that do not write it. -/
theorem effect_mem {i : Instr} (s : State) (h : writesMemory i = false) : (effect i s).arch.mem = s.mem := by
  cases i
  case lda | ldx | ldy | and | ora | eor | cmp | cpx | cpy => simp [effect, State.arch_load]
  case bit => simp [effect, State.arch_bitFlags, State.bitFlags_mem, State.arch_load]
  case adc | sbc => simp [effect, State.arch_decimalExtra, State.arch_load]
  case asl o | lsr o | rol o | ror o | inc o | dec o | tsb o | trb o =>
    obtain rfl : o = .acc := bne_eq_false_iff_eq.mp h
    simp [effect, State.arch_modify_acc]
  case bpl | bmi | bvc | bvs | bcc | bcs | bne | beq | bra => simp [effect, State.arch_branch]
  case bbr0 | bbr1 | bbr2 | bbr3 | bbr4 | bbr5 | bbr6 | bbr7 => simp [effect, State.arch_bitBranch]
  case bbs0 | bbs1 | bbs2 | bbs3 | bbs4 | bbs5 | bbs6 | bbs7 => simp [effect, State.arch_bitBranch]
  case jmp => simp [effect, State.arch_jumpAccess]
  case pla | plx | ply | plp => simp [effect]
  case rts => simp [effect, State.arch_returnSubroutine]
  case rti => simp [effect, State.arch_interruptReturn]
  case tax | tay | txa | tya | tsx | txs | inx | iny | dex | dey | clc | sec | cli | sei | cld | sed | clv | nop => simp [effect]
  case wai | stp | illegal => rfl
  all_goals cases h

/-- An effect leaves PC at the next instruction, for the instructions that are no control transfers. -/
theorem effect_PC {i : Instr} {s : State} (hw : i.wellFormed s.cfg = true) (hs : i.stops = false)
    (h : transfersControl i = false) : (effect i s).regs.PC = s.PC + BitVec.ofNat 16 i.length := by
  cases i
  case lda | ldx | ldy | and | ora | eor | cmp | cpx | cpy => simp [effect, State.regs_load, Instr.length, Instr.mode]
  case bit o => cases o <;> simp [effect, State.bitFlags, State.regs_load, Instr.length, Instr.mode]
  case adc | sbc => simp [effect, State.regs_decimalExtra, State.regs_load, Instr.length, Instr.mode]
  case sta o =>
    have hne := ne_imm_of_wellFormed (f := .sta) rfl (fun _ => rfl) hw
    simp [effect, State.regs_store s o _ hne, Instr.length, Instr.mode]
  case stx o =>
    have hne := ne_imm_of_wellFormed (f := .stx) rfl (fun _ => rfl) hw
    simp [effect, State.regs_store s o _ hne, Instr.length, Instr.mode]
  case sty o =>
    have hne := ne_imm_of_wellFormed (f := .sty) rfl (fun _ => rfl) hw
    simp [effect, State.regs_store s o _ hne, Instr.length, Instr.mode]
  case stz o =>
    have hne := ne_imm_of_wellFormed (f := .stz) rfl (fun _ => rfl) hw
    simp [effect, State.regs_store s o _ hne, Instr.length, Instr.mode]
  case asl | lsr | rol | ror | inc | dec | tsb | trb => simp [effect, State.regs_modify_of_any, Instr.length, Instr.mode]
  case rmb0 | rmb1 | rmb2 | rmb3 | rmb4 | rmb5 | rmb6 | rmb7 =>
    simp [effect, State.regs_resetBit, Instr.length, Instr.mode, Mode.length]
  case smb0 | smb1 | smb2 | smb3 | smb4 | smb5 | smb6 | smb7 =>
    simp [effect, State.regs_setBit, Instr.length, Instr.mode, Mode.length]
  case bpl | bmi | bvc | bvs | bcc | bcs | bne | beq | bra | jmp | jsr | rts | rti | brk => cases h
  case bbr0 | bbr1 | bbr2 | bbr3 | bbr4 | bbr5 | bbr6 | bbr7 => cases h
  case bbs0 | bbs1 | bbs2 | bbs3 | bbs4 | bbs5 | bbs6 | bbs7 => cases h
  case wai | stp | illegal => cases hs
  all_goals rfl

/-- Settles O54: the registers and the memory that an effect leaves, and the bookkeeping. -/
theorem registersChangeOnlyWhereListed : Obligations.RegistersChangeOnlyWhereListed := by
  intro i s t h
  obtain ⟨-, hinstrs, hhost, hfree, hcfg⟩ := counted_of_exec h
  obtain ⟨hw, hs, rfl⟩ := exec_next_inv h
  obtain ⟨hX, hY⟩ := effect_XY i s
  exact ⟨effect_A hw, hX, hY, effect_S s, effect_mem s, effect_PC hw hs, hcfg, hhost, hfree, hinstrs⟩

end Sys2Proof.Machine
end

section
/-! The invariant: memory stays canonical, and nothing writes the configuration (spec 20_memory.md R60, 00_scope.md R9). -/

namespace Sys2Proof.Machine

/-- What writes memory keeps its canonical form, and what does not leaves it as it is. -/
theorem inv_effect {s : State} (h : Inv s) (i : Instr) : Inv (effect i s) := by
  cases hm : writesMemory i with
  | false => exact Inv_congr h (effect_mem s hm)
  | true =>
    cases i
    case sta o | stx o | sty o | stz o => exact h.store o _
    case asl o | lsr o | rol o | ror o | inc o | dec o | tsb o | trb o => exact h.modify o _
    case rmb0 zp | rmb1 zp | rmb2 zp | rmb3 zp | rmb4 zp | rmb5 zp | rmb6 zp | rmb7 zp => exact h.modify (.zp zp) _
    case smb0 zp | smb1 zp | smb2 zp | smb3 zp | smb4 zp | smb5 zp | smb6 zp | smb7 zp => exact h.modify (.zp zp) _
    case pha | php | phx | phy => exact h.implied.push _
    case jsr w => exact h.callSubroutine _
    case brk => exact Inv.interruptEntry (s := s.fetch.fetch) h _ _ _
    all_goals cases hm

/-- A host call other than Step() keeps memory canonical: only Poke and the exception entries write it. -/
theorem inv_hostSet {s : State} (h : Inv s) (c : HostCall) : Inv (s.hostSet c) := by
  cases c
  case nmi => exact h.interruptEntry vecNMI false _
  case irq =>
    show Inv s.irq
    cases hI : s.I with
    | true => rwa [State.irq_masked hI]
    | false => rw [State.irq_taken hI]; exact h.interruptEntry vecIRQ false _
  case poke a v => exact Inv_poke h a v
  all_goals exact h

theorem hostSet_cfg (s : State) (c : HostCall) : (s.hostSet c).cfg = s.cfg := by
  cases c
  case nmi => exact (counted_interruptEntry s _ _ _).cfg_eq
  case irq =>
    cases hI : s.I with
    | true => exact congrArg State.cfg (State.irq_masked hI)
    | false => exact (congrArg State.cfg (State.irq_taken hI)).trans (counted_interruptEntry s _ _ _).cfg_eq
  all_goals rfl

/-- `Step()` keeps the invariant. -/
theorem stepInstr_keeps {s t : State} (h : Inv s) (ht : stepInstr s = .next t) : Inv t ∧ t.cfg = s.cfg := by
  obtain ⟨u, hu, rfl⟩ := stepInstr_next_inv ht
  have hcfg := (counted_of_exec hu).cfg_eq
  obtain ⟨-, -, rfl⟩ := exec_next_inv hu
  exact ⟨inv_effect (s := s.beginTransaction) h _, hcfg⟩

/-- Settles O51: `Step()` keeps the invariant, and so does every other host call. -/
theorem everyStepKeepsTheInvariant : Obligations.EveryStepKeepsTheInvariant := by
  intro s t h ht
  cases hh : s.host with
  | nil => exact stepInstr_keeps h (step_nil hh ▸ ht)
  | cons c calls =>
    by_cases hc : c = .step
    · subst hc
      rw [step_cons hh] at ht
      exact stepInstr_keeps (s := { s with host := calls }) h ht
    · cases (step_hostCall hh hc).symm.trans ht
      exact ⟨inv_hostSet (s := { s with host := calls, trace := [] }) h c, hostSet_cfg _ c⟩

end Sys2Proof.Machine
end

section
/-! The trace of every instruction: the pattern of its class and mode (spec 48_bus_access_patterns.md R344 to R363). -/

namespace Sys2Proof.Machine

/-- BIT's flags leave the trace. -/
theorem State.bitFlags_trace (s : State) (o : DataOperand) (m : Byte) : (s.bitFlags o m).trace = s.trace := by
  cases o <;> rfl

/-- A relative branch after its two fetches. -/
theorem State.trace_fetch2_branch {s : State} (h : DefaultDummies s.cfg) (taken : Bool) (off : Byte) :
    (s.fetch.fetch.branch taken off).trace = s.trace ++ branchPattern s taken off := by
  have htaken : takenPattern s.fetch.fetch (s.PC + 2) off = takenPattern s (s.PC + 2) off := by
    simp only [takenPattern, rd_fetch, State.fetch_cfg]
  rw [State.trace_branch (s := s.fetch.fetch) h, State.trace_fetch2, State.fetch2_PC, htaken, branchPattern, List.append_assoc]

/-- BRK: the opcode and the signature byte, then the entry. -/
theorem State.trace_fetch2_interruptEntry (s : State) :
    (s.fetch.fetch.interruptEntry vecIRQ true true).trace = s.trace ++ brkPattern s := by
  rw [State.trace_interruptEntry _ _ _ _ (by decide) (by decide), State.trace_fetch2, State.fetch2_PC, List.append_assoc]
  rfl

theorem State.trace_implied_stackTop_interruptReturn {s : State} (h : DefaultDummies s.cfg) :
    s.implied.stackTop.interruptReturn.trace = s.trace ++ pullPattern s 3 := by
  rw [State.trace_interruptReturn, State.trace_stackTop (by simpa using h), State.trace_implied h]
  simp only [List.append_assoc]
  rfl

/-- What an effect appends to the trace, with the default dummy addresses. -/
theorem trace_effect {i : Instr} {s : State} (h : DefaultDummies s.cfg) (hs : i.stops = false) :
    (effect i s).trace = s.trace ++ busPattern i s := by
  cases i
  case lda o | ldx o | ldy o | and o | ora o | eor o | cmp o | cpx o | cpy o => exact State.trace_load h o
  case bit o => exact (State.bitFlags_trace _ o _).trans (State.trace_load h o)
  case adc o | sbc o => exact State.trace_arith h o _
  case sta o | stx o | sty o | stz o => exact State.trace_store h o _
  case asl o | lsr o | rol o | ror o | inc o | dec o | tsb o | trb o => exact State.trace_modify h o _
  case rmb0 zp | rmb1 zp | rmb2 zp | rmb3 zp | rmb4 zp | rmb5 zp | rmb6 zp | rmb7 zp => exact State.trace_modify h (.zp zp) _
  case smb0 zp | smb1 zp | smb2 zp | smb3 zp | smb4 zp | smb5 zp | smb6 zp | smb7 zp => exact State.trace_modify h (.zp zp) _
  case bpl off | bmi off | bvc off | bvs off | bcc off | bcs off | bne off | beq off | bra off =>
    exact State.trace_fetch2_branch h _ off
  case bbr0 zp off | bbr1 zp off | bbr2 zp off | bbr3 zp off | bbr4 zp off | bbr5 zp off | bbr6 zp off | bbr7 zp off =>
    exact State.trace_bitBranch h _ _ zp off
  case bbs0 zp off | bbs1 zp off | bbs2 zp off | bbs3 zp off | bbs4 zp off | bbs5 zp off | bbs6 zp off | bbs7 zp off =>
    exact State.trace_bitBranch h _ _ zp off
  case jmp o => exact State.trace_jumpAccess h o
  case pha | php | phx | phy => exact State.trace_implied_push h _
  case pla | plp | plx | ply => exact State.trace_implied_stackTop_pull h
  case jsr w => exact State.trace_callSubroutine h _
  case rts => exact State.trace_returnSubroutine h
  case brk => exact s.trace_fetch2_interruptEntry
  case rti => exact State.trace_implied_stackTop_interruptReturn h
  case wai | stp | illegal => cases hs
  all_goals exact State.trace_implied h

/-- Settles O47: what an effect appends. -/
theorem busPatternOfEveryInstruction : Obligations.BusPatternOfEveryInstruction := fun i s hd hw hs =>
  ⟨effect i s, exec_next hw hs, trace_effect hd hs⟩

end Sys2Proof.Machine
end

section
/-! Two runs side by side: what no address of a dummy read, no way of writing back and, but for the arithmetic and the packing, no D
can change (spec 00_scope.md R9, 10_state.md R39). Each shared operation keeps two states alike, so every instruction does. -/

namespace Sys2Proof.Machine

/-- What two runs agree in: the registers, the flags but D, the counters and the host's part. -/
def State.common (s : State) : State := { s with mem := [], trace := [], D := false, cfg := {} }

/-- Two states that agree in registers, flags, memory contents and counters, and in the parameters P1 and P8; in D when `sameD`
says so. With one configuration the two memories are one list. -/
structure Alike (sameD : Prop) (s t : State) : Prop where
  common : t.common = s.common
  D : sameD → t.D = s.D
  peek : ∀ a, t.peek a = s.peek a
  mem : t.cfg = s.cfg → t.mem = s.mem
  variant : t.cfg.variant = s.cfg.variant
  decAdcN : t.cfg.nmosDecAdcN = s.cfg.nmosDecAdcN

namespace Alike

variable {sameD : Prop} {s t : State}

theorem symm (h : Alike sameD s t) : Alike sameD t s where
  common := h.common.symm
  D hD := (h.D hD).symm
  peek a := (h.peek a).symm
  mem hcfg := (h.mem hcfg.symm).symm
  variant := h.variant.symm
  decAdcN := h.decAdcN.symm

/-! ## What alike states agree in -/

theorem A (h : Alike sameD s t) : t.A = s.A := (congrArg State.A h.common :)
theorem X (h : Alike sameD s t) : t.X = s.X := (congrArg State.X h.common :)
theorem Y (h : Alike sameD s t) : t.Y = s.Y := (congrArg State.Y h.common :)
theorem S (h : Alike sameD s t) : t.S = s.S := (congrArg State.S h.common :)
theorem PC (h : Alike sameD s t) : t.PC = s.PC := (congrArg State.PC h.common :)
theorem C (h : Alike sameD s t) : t.C = s.C := (congrArg State.C h.common :)
theorem Z (h : Alike sameD s t) : t.Z = s.Z := (congrArg State.Z h.common :)
theorem I (h : Alike sameD s t) : t.I = s.I := (congrArg State.I h.common :)
theorem V (h : Alike sameD s t) : t.V = s.V := (congrArg State.V h.common :)
theorem N (h : Alike sameD s t) : t.N = s.N := (congrArg State.N h.common :)
theorem cycles (h : Alike sameD s t) : t.cycles = s.cycles := (congrArg State.cycles h.common :)

theorem pulled (h : Alike sameD s t) : t.pulled = s.pulled := by rw [State.pulled, h.S, h.peek, State.pulled]

theorem pack (h : Alike sameD s t) (hD : sameD) (b : Bool) : t.pack b = s.pack b := by
  simp only [State.pack, h.N, h.V, h.D hD, h.I, h.Z, h.C]

theorem vectorWord (h : Alike sameD s t) (v : Word) : t.vectorWord v = s.vectorWord v := by
  simp only [State.vectorWord, h.peek]

theorem eaBase (h : Alike sameD s t) (o : DataOperand) : t.eaBase o = s.eaBase o := by
  cases o <;> simp only [State.eaBase, State.zpPointer, h.PC, h.X, h.Y, h.peek]

theorem eaIndex (h : Alike sameD s t) (o : DataOperand) : t.eaIndex o = s.eaIndex o := by
  cases o <;> simp only [State.eaIndex, h.X, h.Y]

theorem ea (h : Alike sameD s t) (o : DataOperand) : t.ea o = s.ea o := by rw [State.ea, h.eaBase, h.eaIndex, State.ea]

theorem crossed (h : Alike sameD s t) (o : DataOperand) : t.crossed o = s.crossed o := by
  rw [State.crossed, h.ea, h.eaBase, State.crossed]

theorem operand (h : Alike sameD s t) (o : DataOperand) : t.operand o = s.operand o := by
  cases o <;> simp only [State.operand, h.ea, h.peek]

theorem rmwOld (h : Alike sameD s t) (o : RmwOperand) : t.rmwOld o = s.rmwOld o := by
  cases o <;> simp only [State.rmwOld, rmwData, h.A, h.ea, h.peek]

theorem jumpPointerHigh (h : Alike sameD s t) (w : Word) :
    Machine.jumpPointerHigh t.cfg w = Machine.jumpPointerHigh s.cfg w := by
  rw [Machine.jumpPointerHigh, h.variant, Machine.jumpPointerHigh]

theorem jumpTarget (h : Alike sameD s t) (o : JumpOperand) : t.jumpTarget o = s.jumpTarget o := by
  cases o <;> simp only [State.jumpTarget, h.jumpPointerHigh, h.X, h.peek]

theorem adcResult (h : Alike sameD s t) (hD : sameD) (m : Byte) :
    Machine.adcResult t.cfg t.D t.A m t.C = Machine.adcResult s.cfg s.D s.A m s.C := by
  rw [Machine.adcResult, h.variant, h.decAdcN, h.D hD, h.A, h.C, Machine.adcResult]

theorem sbcResult (h : Alike sameD s t) (hD : sameD) (m : Byte) :
    Machine.sbcResult t.cfg t.D t.A m t.C = Machine.sbcResult s.cfg s.D s.A m s.C := by
  rw [Machine.sbcResult, h.variant, h.D hD, h.A, h.C, Machine.sbcResult]

/-! ## Register and flag writes -/

theorem setA (h : Alike sameD s t) {v w : Byte} (e : w = v) : Alike sameD (s.setA v) (t.setA w) :=
  { h with common := congrArg₂ State.setA h.common e }
theorem setX (h : Alike sameD s t) {v w : Byte} (e : w = v) : Alike sameD (s.setX v) (t.setX w) :=
  { h with common := congrArg₂ State.setX h.common e }
theorem setY (h : Alike sameD s t) {v w : Byte} (e : w = v) : Alike sameD (s.setY v) (t.setY w) :=
  { h with common := congrArg₂ State.setY h.common e }
theorem setS (h : Alike sameD s t) {v w : Byte} (e : w = v) : Alike sameD (s.setS v) (t.setS w) :=
  { h with common := congrArg₂ State.setS h.common e }
theorem setPC (h : Alike sameD s t) {v w : Word} (e : w = v) : Alike sameD (s.setPC v) (t.setPC w) :=
  { h with common := congrArg₂ State.setPC h.common e }
theorem setC (h : Alike sameD s t) {b c : Bool} (e : c = b) : Alike sameD (s.setC b) (t.setC c) :=
  { h with common := congrArg₂ State.setC h.common e }
theorem setI (h : Alike sameD s t) {b c : Bool} (e : c = b) : Alike sameD (s.setI b) (t.setI c) :=
  { h with common := congrArg₂ State.setI h.common e }
theorem setV (h : Alike sameD s t) {b c : Bool} (e : c = b) : Alike sameD (s.setV b) (t.setV c) :=
  { h with common := congrArg₂ State.setV h.common e }
theorem setD (h : Alike sameD s t) (b : Bool) : Alike sameD (s.setD b) (t.setD b) := { h with D := fun _ => rfl }
theorem setNZ (h : Alike sameD s t) {v w : Byte} (e : w = v) : Alike sameD (s.setNZ v) (t.setNZ w) :=
  { h with common := congrArg₂ State.setNZ h.common e }
theorem setAlu (h : Alike sameD s t) {r r' : AluResult} (e : r' = r) : Alike sameD (s.setAlu r) (t.setAlu r') :=
  { h with common := congrArg₂ State.setAlu h.common e }
theorem setZAnd (h : Alike sameD s t) {m m' : Byte} (e : m' = m) : Alike sameD (s.setZAnd m) (t.setZAnd m') :=
  { h with common := congrArg₂ State.setZAnd h.common e }
theorem compare (h : Alike sameD s t) {r r' m m' : Byte} (er : r' = r) (em : m' = m) :
    Alike sameD (s.compare r m) (t.compare r' m') := by
  subst er em
  exact { h with common := congrArg (·.compare r' m') h.common }

theorem bitFlags (h : Alike sameD s t) (o : DataOperand) {m m' : Byte} (e : m' = m) :
    Alike sameD (s.bitFlags o m) (t.bitFlags o m') := by
  cases o
  case imm => exact h.setZAnd e
  all_goals
    exact { h.setZAnd e with
            common := congrArg₂ (fun u n => ((State.setZAnd u n).setN (bitOf n 7)).setV (bitOf n 6)) h.common e }

theorem unpack (h : Alike sameD s t) {v w : Byte} (e : w = v) : Alike sameD (s.unpack v) (t.unpack w) :=
  { h with
    common := congrArg₂ (fun u n => { State.unpack u n with D := false }) h.common e
    D := fun _ => congrArg (bitOf · 3) e }

theorem enterFlags (h : Alike sameD s t) : Alike sameD s.enterFlags t.enterFlags :=
  { h.setI rfl with D := fun hD => by rw [State.enterFlags_D, State.enterFlags_D, h.variant, h.D hD] }

/-! ## Accesses. A read may be at any address: only the trace shows it. -/

theorem readBus (h : Alike sameD s t) (a b : Word) : Alike sameD (s.readBus a) (t.readBus b) :=
  { h with common := congrArg (fun u : State => { u with cycles := u.cycles + 1 }) h.common }

theorem dummy (h : Alike sameD s t) (k : DummyKind) (a b : Word) : Alike sameD (s.dummy k a) (t.dummy k b) := h.readBus _ _

theorem fetch (h : Alike sameD s t) : Alike sameD s.fetch t.fetch := (h.readBus _ _).setPC (congrArg (· + 1) h.PC)

theorem fetch2 (h : Alike sameD s t) : Alike sameD s.fetch.fetch t.fetch.fetch := h.fetch.fetch

theorem writeBus (h : Alike sameD s t) {a b : Word} (hab : b = a) {v w : Byte} (e : w = v) :
    Alike sameD (s.writeBus a v) (t.writeBus b w) := by
  subst hab e
  exact { h.readBus b b with
          peek := fun c => by rw [State.peek_writeBus, State.peek_writeBus, h.peek]
          mem := fun hcfg => congrArg (memWrite · b.toNat w) (h.mem hcfg) }

theorem push (h : Alike sameD s t) {v w : Byte} (e : w = v) : Alike sameD (s.push v) (t.push w) :=
  (h.writeBus (congrArg stackAddr h.S) e).setS (congrArg (· - 1) h.S)

theorem pushWord (h : Alike sameD s t) {v w : Word} (e : w = v) : Alike sameD (s.pushWord v) (t.pushWord w) :=
  (h.push (congrArg hi8 e)).push (congrArg lo8 e)

theorem pull (h : Alike sameD s t) : Alike sameD s.pull t.pull := (h.setS (congrArg (· + 1) h.S)).readBus _ _

theorem implied (h : Alike sameD s t) : Alike sameD s.implied t.implied := h.fetch.dummy _ _ _

theorem stackTop (h : Alike sameD s t) : Alike sameD s.stackTop t.stackTop := h.dummy _ _ _

theorem readZpPointer (h : Alike sameD s t) (b c : Byte) : Alike sameD (s.readZpPointer b) (t.readZpPointer c) :=
  (h.readBus _ _).readBus _ _

/-! ## The operations of the instructions -/

theorem indexFixup (h : Alike sameD s t) (k : AccessClass) {c c' : Bool} (e : c' = c) (w w' : Word) :
    Alike sameD (s.indexFixup k c w) (t.indexFixup k c' w') := by
  subst e
  cases k
  case read =>
    cases c'
    · exact h
    · exact h.dummy _ _ _
  case write | rmw => exact h.dummy _ _ _

theorem access (h : Alike sameD s t) (o : DataOperand) (k : AccessClass) : Alike sameD (s.access o k) (t.access o k) := by
  cases o
  case imm => exact h.fetch
  case zp => exact h.fetch2
  case zpx | zpy => exact h.fetch2.dummy _ _ _
  case abs => exact h.fetch2.fetch
  case abx | aby => exact h.fetch2.fetch.indexFixup k (h.crossed _) _ _
  case izx => exact (h.fetch2.dummy _ _ _).readZpPointer _ _
  case izy => exact (h.fetch2.readZpPointer _ _).indexFixup k (h.crossed _) _ _
  case izp => exact h.fetch2.readZpPointer _ _

theorem load (h : Alike sameD s t) (o : DataOperand) : Alike sameD (s.load o) (t.load o) := by
  cases o
  case imm => exact h.fetch2
  all_goals exact (h.access _ .read).readBus _ _

theorem store (h : Alike sameD s t) (o : DataOperand) {v w : Byte} (e : w = v) : Alike sameD (s.store o v) (t.store o w) :=
  (h.access o .write).writeBus (h.ea o) e

theorem decimalExtra (h : Alike sameD s t) (hD : sameD) (a b : Word) : Alike sameD (s.decimalExtra a) (t.decimalExtra b) := by
  rw [State.decimalExtra, State.decimalExtra, h.variant, h.D hD]
  cases s.cfg.variant
  · exact h
  · cases s.D
    · exact h
    · exact h.dummy _ _ _

/-- Writing back the byte that an address holds is reading it, but for the trace and for what the two memory lists are. -/
theorem readBus_writeBack (h : Alike sameD s t) {a b : Word} {old : Byte} (e : old = t.peek b) (hcfg : t.cfg ≠ s.cfg) :
    Alike sameD (s.readBus a) (t.writeBus b old) :=
  { h.readBus a b with
    peek := fun c => by
      rw [State.peek_writeBus, State.peek_readBus, ← h.peek, e]
      split
      · next hc => rw [hc]
      · rfl
    mem := fun hc => absurd hc hcfg }

end Alike

/-- P3 as the model reads it: on CMOS65C02 the middle access may be a second read. -/
theorem State.rmwMiddle_eq (s : State) (a : Word) (old : Byte) :
    s.rmwMiddle a old =
      if s.cfg.variant = .cmos65C02 ∧ s.cfg.cmosRmwSecondAccess = .read then s.readBus a else s.writeBus a old := by
  rw [State.rmwMiddle]
  cases s.cfg.variant <;> cases s.cfg.cmosRmwSecondAccess <;> rfl

namespace Alike

variable {sameD : Prop} {s t : State}

theorem rmwMiddle (h : Alike sameD s t) {a b : Word} (hab : b = a) {v w : Byte} (hv : v = s.peek a) (hw : w = v) :
    Alike sameD (s.rmwMiddle a v) (t.rmwMiddle b w) := by
  have hpeek : w = t.peek b := by rw [hw, hv, h.peek, hab]
  by_cases hcfg : t.cfg = s.cfg
  · rw [State.rmwMiddle_eq, State.rmwMiddle_eq, hcfg]
    split
    · exact h.readBus _ _
    · exact h.writeBus hab hw
  · rw [State.rmwMiddle_eq, State.rmwMiddle_eq]
    split
    · split
      · exact h.readBus _ _
      · exact h.readBus_writeBack hpeek hcfg
    · split
      · exact (h.symm.readBus_writeBack hv fun e => hcfg e.symm).symm
      · exact h.writeBus hab hw

theorem modify (h : Alike sameD s t) (o : RmwOperand) {v w : Byte} (e : w = v) :
    Alike sameD (s.modify o v) (t.modify o w) := by
  rw [State.modify, State.modify]
  cases hd : rmwData o with
  | none => exact h.implied.setA e
  | some d =>
    have hold : s.rmwOld o = (s.access d .rmw).peek (s.ea d) := by
      rw [State.rmwOld, hd]
      exact (congrArg BusAccess.value (rd_access s d .rmw (s.ea d)) :).symm
    exact (((h.access d .rmw).readBus _ _).rmwMiddle (h.ea d) hold (h.rmwOld o)).writeBus (h.ea d) e

theorem resetBit (h : Alike sameD s t) (n : Nat) (zp : Byte) : Alike sameD (s.resetBit n zp) (t.resetBit n zp) :=
  h.modify _ (congrArg (· &&& (bitMask n ^^^ 0xFF)) (h.rmwOld _))

theorem setBit (h : Alike sameD s t) (n : Nat) (zp : Byte) : Alike sameD (s.setBit n zp) (t.setBit n zp) :=
  h.modify _ (congrArg (· ||| bitMask n) (h.rmwOld _))

theorem branch (h : Alike sameD s t) {c c' : Bool} (e : c' = c) (off : Byte) :
    Alike sameD (s.branch c off) (t.branch c' off) := by
  rw [State.branch, State.branch, e, h.PC]
  cases c
  · exact h
  · refine Alike.setPC ?_ rfl
    simp only [State.branchDummies, h.PC]
    split
    · exact (h.dummy _ _ _).dummy _ _ _
    · exact h.dummy _ _ _

theorem bitBranch (h : Alike sameD s t) (n : Nat) (want : Bool) (zp off : Byte) :
    Alike sameD (s.bitBranch n want zp off) (t.bitBranch n want zp off) :=
  ((h.fetch2.readBus _ _).dummy _ _ _).fetch.branch (by rw [h.peek]) off

theorem jumpAccess (h : Alike sameD s t) (o : JumpOperand) : Alike sameD (s.jumpAccess o) (t.jumpAccess o) := by
  cases o
  · exact h.fetch2.fetch
  · exact (h.fetch2.fetch.readBus _ _).readBus _ _
  · exact ((h.fetch2.fetch.dummy _ _ _).readBus _ _).readBus _ _

theorem callSubroutine (h : Alike sameD s t) (lo : Byte) : Alike sameD (s.callSubroutine lo) (t.callSubroutine lo) := by
  have hpushed := h.fetch2.stackTop.pushWord h.fetch2.stackTop.PC
  exact (hpushed.readBus _ _).setPC (congrArg (word · lo) ((hpushed.peek _).trans (congrArg _ hpushed.PC)))

theorem returnSubroutine (h : Alike sameD s t) : Alike sameD s.returnSubroutine t.returnSubroutine := by
  have hlow := h.implied.stackTop
  have hret := congrArg₂ word hlow.pull.pulled hlow.pulled
  exact (hlow.pull.pull.dummy _ _ _).setPC (congrArg (· + 1) hret)

theorem interruptEntry (h : Alike sameD s t) (hD : sameD) (vec : Word) (b counted : Bool) :
    Alike sameD (s.interruptEntry vec b counted) (t.interruptEntry vec b counted) := by
  have hentered := ((h.pushWord h.PC).push (h.pack hD b)).enterFlags
  cases counted
  · exact hentered.setPC (hentered.vectorWord vec)
  · exact ((hentered.readBus _ _).readBus _ _).setPC (hentered.vectorWord vec)

theorem interruptReturn (h : Alike sameD s t) : Alike sameD s.interruptReturn t.interruptReturn := by
  have hlow := h.pull.unpack h.pulled
  exact hlow.pull.pull.setPC (congrArg₂ word hlow.pull.pulled hlow.pulled)

/-- Every instruction keeps two states alike: those that touch D, when the two have the same D. -/
theorem effect (h : Alike sameD s t) (i : Instr) (hD : touchesD i = true → sameD) :
    Alike sameD (Machine.effect i s) (Machine.effect i t) := by
  cases i
  case lda o => exact ((h.load o).setA (h.operand o)).setNZ (h.operand o)
  case ldx o => exact ((h.load o).setX (h.operand o)).setNZ (h.operand o)
  case ldy o => exact ((h.load o).setY (h.operand o)).setNZ (h.operand o)
  case and o =>
    have hr := congrArg₂ (· &&& ·) h.A (h.operand o)
    exact ((h.load o).setA hr).setNZ hr
  case ora o =>
    have hr := congrArg₂ (· ||| ·) h.A (h.operand o)
    exact ((h.load o).setA hr).setNZ hr
  case eor o =>
    have hr := congrArg₂ (· ^^^ ·) h.A (h.operand o)
    exact ((h.load o).setA hr).setNZ hr
  case cmp o => exact (h.load o).compare h.A (h.operand o)
  case cpx o => exact (h.load o).compare h.X (h.operand o)
  case cpy o => exact (h.load o).compare h.Y (h.operand o)
  case bit o => exact (h.load o).bitFlags o (h.operand o)
  case adc o => exact ((h.load o).setAlu (by rw [h.operand, h.adcResult (hD rfl)])).decimalExtra (hD rfl) _ _
  case sbc o => exact ((h.load o).setAlu (by rw [h.operand, h.sbcResult (hD rfl)])).decimalExtra (hD rfl) _ _
  case sta o => exact h.store o h.A
  case stx o => exact h.store o h.X
  case sty o => exact h.store o h.Y
  case stz o => exact h.store o rfl
  case asl o =>
    have hr := congrArg aslByte (h.rmwOld o)
    exact ((h.modify o hr).setC (congrArg (bitOf · 7) (h.rmwOld o))).setNZ hr
  case lsr o =>
    have hr := congrArg lsrByte (h.rmwOld o)
    exact ((h.modify o hr).setC (congrArg (bitOf · 0) (h.rmwOld o))).setNZ hr
  case rol o =>
    have hr := congrArg₂ rolByte h.C (h.rmwOld o)
    exact ((h.modify o hr).setC (congrArg (bitOf · 7) (h.rmwOld o))).setNZ hr
  case ror o =>
    have hr := congrArg₂ rorByte h.C (h.rmwOld o)
    exact ((h.modify o hr).setC (congrArg (bitOf · 0) (h.rmwOld o))).setNZ hr
  case inc o =>
    have hr := congrArg (· + 1) (h.rmwOld o)
    exact (h.modify o hr).setNZ hr
  case dec o =>
    have hr := congrArg (· - 1) (h.rmwOld o)
    exact (h.modify o hr).setNZ hr
  case tsb o => exact (h.modify o (congrArg₂ (· ||| ·) (h.rmwOld o) h.A)).setZAnd (h.rmwOld o)
  case trb o => exact (h.modify o (congrArg₂ (fun v a => v &&& (a ^^^ 0xFF)) (h.rmwOld o) h.A)).setZAnd (h.rmwOld o)
  case rmb0 zp | rmb1 zp | rmb2 zp | rmb3 zp | rmb4 zp | rmb5 zp | rmb6 zp | rmb7 zp => exact h.resetBit _ zp
  case smb0 zp | smb1 zp | smb2 zp | smb3 zp | smb4 zp | smb5 zp | smb6 zp | smb7 zp => exact h.setBit _ zp
  case bpl off => exact h.fetch2.branch (congrArg (!·) h.N) off
  case bmi off => exact h.fetch2.branch h.N off
  case bvc off => exact h.fetch2.branch (congrArg (!·) h.V) off
  case bvs off => exact h.fetch2.branch h.V off
  case bcc off => exact h.fetch2.branch (congrArg (!·) h.C) off
  case bcs off => exact h.fetch2.branch h.C off
  case bne off => exact h.fetch2.branch (congrArg (!·) h.Z) off
  case beq off => exact h.fetch2.branch h.Z off
  case bra off => exact h.fetch2.branch (rfl : true = true) off
  case bbr0 zp off | bbr1 zp off | bbr2 zp off | bbr3 zp off | bbr4 zp off | bbr5 zp off | bbr6 zp off | bbr7 zp off =>
    exact h.bitBranch _ _ zp off
  case bbs0 zp off | bbs1 zp off | bbs2 zp off | bbs3 zp off | bbs4 zp off | bbs5 zp off | bbs6 zp off | bbs7 zp off =>
    exact h.bitBranch _ _ zp off
  case jmp o => exact (h.jumpAccess o).setPC (h.jumpTarget o)
  case pha => exact h.implied.push h.A
  case php => exact h.implied.push (h.pack (hD rfl) true)
  case phx => exact h.implied.push h.X
  case phy => exact h.implied.push h.Y
  case pla => exact (h.implied.stackTop.pull.setA h.pulled).setNZ h.pulled
  case plx => exact (h.implied.stackTop.pull.setX h.pulled).setNZ h.pulled
  case ply => exact (h.implied.stackTop.pull.setY h.pulled).setNZ h.pulled
  case plp => exact h.implied.stackTop.pull.unpack h.pulled
  case jsr w => exact h.callSubroutine _
  case rts => exact h.returnSubroutine
  case brk => exact h.fetch2.interruptEntry (hD rfl) _ _ _
  case rti => exact h.implied.stackTop.interruptReturn
  case tax => exact (h.implied.setX h.A).setNZ h.A
  case tay => exact (h.implied.setY h.A).setNZ h.A
  case txa => exact (h.implied.setA h.X).setNZ h.X
  case tya => exact (h.implied.setA h.Y).setNZ h.Y
  case tsx => exact (h.implied.setX h.S).setNZ h.S
  case txs => exact h.implied.setS h.X
  case inx => exact (h.implied.setX (congrArg (· + 1) h.X)).setNZ (congrArg (· + 1) h.X)
  case iny => exact (h.implied.setY (congrArg (· + 1) h.Y)).setNZ (congrArg (· + 1) h.Y)
  case dex => exact (h.implied.setX (congrArg (· - 1) h.X)).setNZ (congrArg (· - 1) h.X)
  case dey => exact (h.implied.setY (congrArg (· - 1) h.Y)).setNZ (congrArg (· - 1) h.Y)
  case clc | sec => exact h.implied.setC rfl
  case cli | sei => exact h.implied.setI rfl
  case cld | sed => exact h.implied.setD _
  case clv => exact h.implied.setV rfl
  case nop => exact h.implied
  case wai | stp | illegal => exact h

end Alike

/-- The registers of alike states are one, when D and the configuration are. -/
theorem Alike.regs {sameD : Prop} {s t : State} (h : Alike sameD s t) : t.regs = { s with D := t.D, cfg := t.cfg }.regs :=
  congrArg (fun u : State => { u with cycles := 0, D := t.D, cfg := t.cfg }) h.common

/-- Settles O50: the state with other parameters is alike, and keeps them. -/
theorem traceParametersLeaveTheResult : Obligations.TraceParametersLeaveTheResult := by
  intro i s t p3 p4 p5 p6 p7 h cfg
  obtain ⟨hw, hs, rfl⟩ := exec_next_inv h
  have hstart : Alike True s { s with cfg := cfg } :=
    { common := rfl, D := fun _ => rfl, peek := fun _ => rfl, mem := fun _ => rfl, variant := rfl, decAdcN := rfl }
  have hend := hstart.effect i fun _ => trivial
  have hcfg := (counted_effect i { s with cfg := cfg }).cfg_eq
  refine ⟨_, exec_next (s := { s with cfg := cfg }) hw hs, ?_, hend.peek, hend.cycles⟩
  rw [hend.regs, hend.D trivial, hcfg]

/-- The architectural parts of alike states with one configuration are one but for D. -/
theorem Alike.arch {sameD : Prop} {s t : State} (h : Alike sameD s t) (hcfg : t.cfg = s.cfg) :
    t.arch = { s with D := t.D }.arch := by
  have hparts : t.arch = { s with D := t.D, mem := t.mem, cfg := t.cfg }.arch :=
    congrArg (fun u : State => { u with cycles := 0, D := t.D, mem := t.mem, cfg := t.cfg }) h.common
  rw [hparts, hcfg, h.mem hcfg]

/-- The pattern of an instruction that does not touch D does not depend on it. -/
theorem busPattern_setD {i : Instr} (s : State) (b : Bool) (hi : touchesD i = false) :
    busPattern i (s.setD b) = busPattern i s := by
  cases i
  case adc | sbc | php | brk | sed | cld | plp | rti => cases hi
  all_goals rfl

theorem writesD_of_touchesD {i : Instr} (cfg : Config) (hi : touchesD i = false) : writesD cfg i = false := by
  cases i
  case brk | sed | cld | plp | rti => cases hi
  all_goals rfl

/-- Settles O55: the state with another D is alike but for D, and the instruction leaves D. -/
theorem decimalFlagMattersToArithmeticOnly : Obligations.DecimalFlagMattersToArithmeticOnly := by
  intro i s t b hi h
  obtain ⟨hw, hs, rfl⟩ := exec_next_inv h
  have hstart : Alike False s (s.setD b) :=
    { common := rfl, D := False.elim, peek := fun _ => rfl, mem := fun _ => rfl, variant := rfl, decAdcN := rfl }
  have hend := hstart.effect i fun h => absurd h (by simp [hi])
  have hcfg : (effect i (s.setD b)).cfg = (effect i s).cfg :=
    (counted_effect i _).cfg_eq.trans (counted_effect i s).cfg_eq.symm
  obtain ⟨-, -, -, hD, -, -⟩ := effect_flags i (s.setD b)
  refine ⟨effect i (s.setD b), exec_next (s := s.setD b) hw hs, ?arch, hend.cycles, fun hd => ?trace⟩
  case arch => rw [hend.arch hcfg, show (effect i (s.setD b)).D = b from hD (writesD_of_touchesD _ hi)]
  case trace => rw [trace_effect (s := s.setD b) hd hs, trace_effect hd hs, busPattern_setD s b hi]; rfl

end Sys2Proof.Machine
end

section
/-! The cycle table: each pattern is as long as the table says (spec 48_bus_access_patterns.md R368), so every instruction takes
that many cycles whatever the dummy addresses are, and every step makes that many accesses. -/

namespace Sys2Proof.Machine

/-! ## The length of each pattern -/

theorem rdInstr_length (s : State) (n : Nat) : (rdInstr s n).length = n := by simp [rdInstr]

theorem fixupPattern_read_length (s : State) (o : DataOperand) : (fixupPattern s o .read).length = plusX s o := by
  rw [fixupPattern, plusX]
  cases s.crossed o <;> rfl

theorem readPattern_length (s : State) (o : DataOperand) : (readPattern s o).length = readCycles s o := by
  cases o <;>
    simp only [readPattern, modePattern, List.length_append, rdInstr_length, fixupPattern_read_length, readCycles,
      List.length_cons, List.length_nil] <;>
    omega

theorem decimalPattern_length (s : State) (o : DataOperand) : (decimalPattern s o).length = readCycles s o + plusD s := by
  rw [decimalPattern, List.length_append, readPattern_length, plusD]
  split <;> rfl

theorem writePattern_length (s : State) {o : DataOperand} (h : ∀ b, o ≠ .imm b) (v : Byte) :
    (writePattern s o v).length = writeCycles o := by
  cases o
  case imm b => exact absurd rfl (h b)
  all_goals simp [writePattern, modePattern, fixupPattern, rdInstr_length, writeCycles]

theorem rmwPattern_length (s : State) (o : RmwOperand) (v : Byte) : (rmwPattern s o v).length = rmwCycles o := by
  cases o <;> simp [rmwPattern, rmwData, impliedPattern, modePattern, fixupPattern, rdInstr_length, rmwCycles]

/-- The dummy reads of a taken branch are what it takes more. -/
theorem taken_length (s : State) (base : Nat) (taken : Bool) (next : Word) (off : Byte) :
    base + (if taken then takenPattern s next off else []).length = branchCycles base taken next off := by
  rw [branchCycles, takenPattern]
  split
  · split <;> rfl
  · rfl

theorem branchPattern_length (s : State) (taken : Bool) (off : Byte) :
    (branchPattern s taken off).length = branchCycles 2 taken (s.PC + 2) off := by
  rw [branchPattern, List.length_append, rdInstr_length, taken_length]

theorem bitBranchPattern_length (s : State) (n : Nat) (want : Bool) (zp off : Byte) :
    (bitBranchPattern s n want zp off).length = branchCycles 5 (bitOf (s.peek (zeroPage zp)) n == want) (s.PC + 3) off := by
  rw [← taken_length s, bitBranchPattern, List.length_append, List.length_append, rdInstr_length]
  simp only [beq_iff_eq]
  rfl

theorem pullPattern_length (s : State) (n : Nat) : (pullPattern s n).length = 3 + n := by
  simp [pullPattern, rdInstr_length]
  omega

/-- The pattern of every instruction is as long as the table says. -/
theorem busPattern_length {i : Instr} {s : State} (hw : i.wellFormed s.cfg = true) :
    (busPattern i s).length = cycleCount i s := by
  cases i
  case lda o | ldx o | ldy o | and o | ora o | eor o | cmp o | cpx o | cpy o | bit o => exact readPattern_length s o
  case adc o | sbc o => exact decimalPattern_length s o
  case sta o => exact writePattern_length s (ne_imm_of_wellFormed (f := .sta) rfl (fun _ => rfl) hw) _
  case stx o => exact writePattern_length s (ne_imm_of_wellFormed (f := .stx) rfl (fun _ => rfl) hw) _
  case sty o => exact writePattern_length s (ne_imm_of_wellFormed (f := .sty) rfl (fun _ => rfl) hw) _
  case stz o => exact writePattern_length s (ne_imm_of_wellFormed (f := .stz) rfl (fun _ => rfl) hw) _
  case asl o | lsr o | rol o | ror o | inc o | dec o | tsb o | trb o => exact rmwPattern_length s o _
  case rmb0 zp | rmb1 zp | rmb2 zp | rmb3 zp | rmb4 zp | rmb5 zp | rmb6 zp | rmb7 zp => exact rmwPattern_length s (.zp zp) _
  case smb0 zp | smb1 zp | smb2 zp | smb3 zp | smb4 zp | smb5 zp | smb6 zp | smb7 zp => exact rmwPattern_length s (.zp zp) _
  case bpl off | bmi off | bvc off | bvs off | bcc off | bcs off | bne off | beq off | bra off => exact branchPattern_length s _ off
  case bbr0 zp off | bbr1 zp off | bbr2 zp off | bbr3 zp off | bbr4 zp off | bbr5 zp off | bbr6 zp off | bbr7 zp off =>
    exact bitBranchPattern_length s _ _ zp off
  case bbs0 zp off | bbs1 zp off | bbs2 zp off | bbs3 zp off | bbs4 zp off | bbs5 zp off | bbs6 zp off | bbs7 zp off =>
    exact bitBranchPattern_length s _ _ zp off
  case jmp o => cases o <;> simp [busPattern, jumpPattern, rdInstr_length, cycleCount]
  case pla | plp | plx | ply => exact pullPattern_length s 1
  case rti => exact pullPattern_length s 3
  all_goals rfl

/-! ## The cycles of an instruction -/

/-- The state with P4 and P5 at their defaults. -/
def State.withDefaultDummies (s : State) : State :=
  { s with cfg := { s.cfg with dummyAddresses := [], cmosDecExtraAddress := .table } }

theorem alike_withDefaultDummies (s : State) : Alike True s.withDefaultDummies s where
  common := rfl
  D _ := rfl
  peek _ := rfl
  mem _ := rfl
  variant := rfl
  decAdcN := rfl

/-- The table does not look at the dummy addresses. -/
theorem cycleCount_withDefaultDummies (i : Instr) (s : State) : cycleCount i s.withDefaultDummies = cycleCount i s := by
  cases i <;> rfl

/-- What appends a list to the trace takes as many cycles as it is long. -/
theorem Counted.cycles_eq {s t : State} (h : Counted s t) {l : List BusAccess} (ht : t.trace = s.trace ++ l) :
    t.cycles = s.cycles + l.length := by
  obtain ⟨⟨l', htrace, hcycles⟩, -⟩ := h
  rw [hcycles, List.append_cancel_left (htrace.symm.trans ht)]

/-- An effect takes the cycles of the table: with the default dummy addresses as many as its pattern is long, and with others as
many as with these. -/
theorem cycles_effect {i : Instr} {s : State} (hw : i.wellFormed s.cfg = true) (hs : i.stops = false) :
    (effect i s).cycles = s.cycles + cycleCount i s := by
  have htrace := trace_effect (i := i) (s := s.withDefaultDummies) ⟨rfl, rfl⟩ hs
  calc (effect i s).cycles
      = (effect i s.withDefaultDummies).cycles := ((alike_withDefaultDummies s).effect i fun _ => trivial).cycles
    _ = s.cycles + (busPattern i s.withDefaultDummies).length := (counted_effect i _).cycles_eq htrace
    _ = s.cycles + cycleCount i s := by
      rw [busPattern_length (s := s.withDefaultDummies) hw, cycleCount_withDefaultDummies]

/-- Settles O48: the cycles of an effect. -/
theorem cycleCountOfEveryInstruction : Obligations.CycleCountOfEveryInstruction := fun i s hw hs =>
  ⟨effect i s, exec_next hw hs, cycles_effect hw hs⟩

/-! ## The accesses of a step -/

theorem cycleCount_beginTransaction (i : Instr) (s : State) : cycleCount i s.beginTransaction = cycleCount i s := by
  cases i <;> rfl

theorem busPattern_beginTransaction (i : Instr) (s : State) : busPattern i s.beginTransaction = busPattern i s := by
  cases i <;> rfl

/-- A step that executes an instruction. -/
theorem accesses_of_stepInstr {s u : State} (h : stepInstr s = .next u) :
    u.trace.length = cycleCount (fetchInstr s) s ∧ (DefaultDummies s.cfg → u.trace = busPattern (fetchInstr s) s) := by
  obtain ⟨t, ht, rfl⟩ := stepInstr_next_inv h
  obtain ⟨hw, hs, rfl⟩ := exec_next_inv ht
  refine ⟨?length, fun hd => ?pattern⟩
  case length =>
    have hcycles := (counted_effect (fetchInstr s) s.beginTransaction).cycles_eq (List.nil_append _).symm
    rw [cycles_effect hw hs, cycleCount_beginTransaction] at hcycles
    exact (Nat.add_left_cancel hcycles).symm
  case pattern => exact (trace_effect (s := s.beginTransaction) hd hs).trans (busPattern_beginTransaction _ s)

theorem busPattern_of_stops {i : Instr} (s : State) (h : i.stops = true) : busPattern i s = [rd s s.PC] := by
  rw [← rdInstr_one]
  cases i
  case wai | stp | illegal => rfl
  all_goals cases h

/-- A step that faults has read a term that stops. -/
theorem stops_of_fault {s : State} {f : Fault} (h : stepInstr s = .fault f) : (fetchInstr s).stops = true := by
  by_contra hs
  have hnext := exec_next (s := s.beginTransaction) (fetchInstr_wellFormed s).1 (Bool.eq_false_of_not_eq_true hs)
  cases (congrArg retired hnext).symm.trans (stepInstr_eq s ▸ h)

/-- A host call other than Step(), from an empty trace. -/
theorem hostSet_accesses (s : State) (c : HostCall) : (s.beginTransaction.hostSet c).trace.length = hostCycles c s := by
  have hentry (vec : Word) (hv : 0x200 ≤ vec.toNat) (hv' : vec.toNat < 65535) :
      (s.beginTransaction.interruptEntry vec false s.cfg.intVectorFetchCounted).freeInstrs.trace.length =
        if s.cfg.intVectorFetchCounted then 5 else 3 := by
    rw [State.freeInstrs_trace, State.trace_interruptEntry _ _ _ _ hv hv']
    split <;> rfl
  cases c
  case nmi => exact hentry vecNMI (by decide) (by decide)
  case irq =>
    show s.beginTransaction.irq.trace.length = if s.I then 0 else _
    cases hI : s.I with
    | true => rw [State.irq_masked (s := s.beginTransaction) hI]; rfl
    | false => rw [State.irq_taken (s := s.beginTransaction) hI]; exact hentry vecIRQ (by decide) (by decide)
  all_goals rfl

/-- Settles O58: a step that completes, a step that faults, a host call. -/
theorem stepTakesTheCyclesOfTheTable : Obligations.StepTakesTheCyclesOfTheTable := by
  refine ⟨fun s hh => ⟨fun t h => ?completes, fun f h => ?faults⟩, fun s c calls hh hc => ?host⟩
  case completes => exact accesses_of_stepInstr (step_nil hh ▸ h)
  case faults =>
    have hpattern := busPattern_of_stops s (stops_of_fault (step_nil hh ▸ h))
    have haccesses := (faultingStepMakesTheOpcodeFetch s hh).2.2 f h
    refine ⟨?_, haccesses.trans hpattern.symm⟩
    rw [← busPattern_length (fetchInstr_wellFormed s).1, hpattern, Fault.cycles, haccesses]
  case host => exact ⟨_, step_hostCall hh hc, hostSet_accesses { s with host := calls } c⟩

end Sys2Proof.Machine
end
